-- ==== Sys2Proof/Word.lean ====
section
/-! DEFINITION. The words of the machine: bytes, 16-bit words, and the fields of an instruction (00 R10, R13). -/

namespace Sys2Proof

/-- One byte: a general register (10 R30), a memory byte (20 R70), an immediate `kk`. -/
abbrev Byte := BitVec 8

/-- A 16-bit word: an instruction, `I`, `pc`, a stack entry (10 R34, R35, R40). -/
abbrev Word := BitVec 16

/-- A 4-bit field: a register number `x` or `y`, a count `n`, a family `n1` (00 R13). -/
abbrev Nibble := BitVec 4

/-- The 12-bit address field `nnn` (00 R13). -/
abbrev Addr := BitVec 12

end Sys2Proof
end

