-- ==== Sys2Proof/Config.lean ====
section
/-! DEFINITION. What an implementation fixes: the parameters of 00 R8, one field each, and the free value Rand8.
The parameters are held in State (field params), so they are an argument of everything the machine does. -/

namespace Sys2Proof

/-- `BNNN_MODE` (00 R8, 43 R191). -/
inductive BnnnMode where
  | jumpV0
  | unknown
  deriving DecidableEq, Repr

/-- `LOW_NIBBLE_59` (00 R8, 30 R109). -/
inductive LowNibble59 where
  | strict
  | ignore
  deriving DecidableEq, Repr

/-- `ALU_VF_ORDER` (00 R8, 42 R161). -/
inductive AluVfOrder where
  | sampled
  | reread
  deriving DecidableEq, Repr

/-- `SHIFT_SOURCE` (00 R8, 42 R162). -/
inductive ShiftSource where
  | vx
  | vy
  deriving DecidableEq, Repr

/-- `SUBN_MODE` (00 R8, 42 R171). -/
inductive SubnMode where
  | asSource
  | reversed
  deriving DecidableEq, Repr

/-- `LDST_I_MODE` (00 R8, 46 R237, R238). -/
inductive LdstIMode where
  | unchanged
  | increment
  deriving DecidableEq, Repr

/-- `GLYPH_WRITE` (00 R8, 20 R76). -/
inductive GlyphWrite where
  | fault
  | ignore
  deriving DecidableEq, Repr

/-- `PC_LOW_CHECK` (00 R8, 10 R39). -/
inductive PcLowCheck where
  | fault
  | allow
  deriving DecidableEq, Repr

/-- `RESTART_MEMORY` (00 R8, 70 R356). -/
inductive RestartMemory where
  | reloadImage
  | keep
  deriving DecidableEq, Repr

/-- The parameters of 00 R8, Rand8 apart. Any values are allowed but for `tickMs`, which R8 calls
a positive number of milliseconds (`Params.wf`). -/
structure Params where
  bnnnMode      : BnnnMode
  lowNibble59   : LowNibble59
  aluVfOrder    : AluVfOrder
  shiftSource   : ShiftSource
  subnMode      : SubnMode
  ldstIMode     : LdstIMode
  glyphWrite    : GlyphWrite
  pcLowCheck    : PcLowCheck
  restartMemory : RestartMemory
  /-- `GLYPHS`: the 80 bytes of the glyph table (20 R74, R75). -/
  glyphs        : Vector Byte 80
  /-- `TICK_MS`: milliseconds per timer tick (60 R325, 92 D23). -/
  tickMs        : Rat
  deriving DecidableEq, Repr

/-- The free value `Rand8()` (43 R193): the byte of the n-th draw. It has no body, so nothing is known
of any draw or of how two draws are related. DESIGN CHOICE, safe: log entry 5. -/
opaque Config.rand8 : Nat → Byte

end Sys2Proof
end

