-- ==== Sys2Proof/Machine/Defaults.lean ====
section
/-! DEFINITION. The default of every parameter (00 R8) and the standard glyph table (20 R75). -/

namespace Sys2Proof

/-- The default of `GLYPHS`: digit d at 5d..5d+4, top row first (20 R74, R75). The bytes are the spec's, taken by it
from general knowledge: log entry 16. -/
def Params.standardGlyphs : Vector Byte 80 :=
  #v[0xF0, 0x90, 0x90, 0x90, 0xF0,
     0x20, 0x60, 0x20, 0x20, 0x70,
     0xF0, 0x10, 0xF0, 0x80, 0xF0,
     0xF0, 0x10, 0xF0, 0x10, 0xF0,
     0x90, 0x90, 0xF0, 0x10, 0x10,
     0xF0, 0x80, 0xF0, 0x10, 0xF0,
     0xF0, 0x80, 0xF0, 0x90, 0xF0,
     0xF0, 0x10, 0x20, 0x40, 0x40,
     0xF0, 0x90, 0xF0, 0x90, 0xF0,
     0xF0, 0x90, 0xF0, 0x10, 0xF0,
     0xF0, 0x90, 0xF0, 0x90, 0x90,
     0xE0, 0x90, 0xE0, 0x90, 0xE0,
     0xF0, 0x80, 0x80, 0x80, 0xF0,
     0xE0, 0x90, 0x90, 0x90, 0xE0,
     0xF0, 0x80, 0xF0, 0x80, 0xF0,
     0xF0, 0x80, 0xF0, 0x80, 0x80]

/-- The default column of 00 R8. -/
def Params.default : Params where
  bnnnMode := .jumpV0
  lowNibble59 := .strict
  aluVfOrder := .sampled
  shiftSource := .vx
  subnMode := .asSource
  ldstIMode := .unchanged
  glyphWrite := .fault
  pcLowCheck := .fault
  restartMemory := .reloadImage
  glyphs := Params.standardGlyphs
  tickMs := 16

end Sys2Proof
end

