-- ==== Sys2Proof/Syntax.lean ====
section
/-! DEFINITION. The instructions: one constructor per row of spec/opcode_table.json, in the table's order,
with the operand fields of 30 R104 and R105. -/

namespace Sys2Proof

/-- The 39 instructions of 30 R108. A word that matches none of them is no instruction (30 R109). -/
inductive Instr where
  /-- 00E0, 40 R130. -/
  | cls
  /-- 00EE, 40 R131. -/
  | ret
  /-- 1nnn, 40 R132. -/
  | jp (nnn : Addr)
  /-- 2nnn, 40 R133. -/
  | call (nnn : Addr)
  /-- 3xkk, 40 R134. -/
  | seImm (x : Nibble) (kk : Byte)
  /-- 4xkk, 40 R135. -/
  | sneImm (x : Nibble) (kk : Byte)
  /-- 5xy0, 40 R136. -/
  | seReg (x y : Nibble)
  /-- 6xkk, 41 R150. -/
  | ldImm (x : Nibble) (kk : Byte)
  /-- 7xkk, 41 R151. -/
  | addImm (x : Nibble) (kk : Byte)
  /-- 8xy0, 42 R164. -/
  | ldReg (x y : Nibble)
  /-- 8xy1, 42 R165. -/
  | orReg (x y : Nibble)
  /-- 8xy2, 42 R166. -/
  | andReg (x y : Nibble)
  /-- 8xy3, 42 R167. -/
  | xorReg (x y : Nibble)
  /-- 8xy4, 42 R168. -/
  | addReg (x y : Nibble)
  /-- 8xy5, 42 R169. -/
  | sub (x y : Nibble)
  /-- 8xy6, 42 R170. -/
  | shr (x y : Nibble)
  /-- 8xy7, 42 R171. -/
  | subn (x y : Nibble)
  /-- 8xyE, 42 R172. -/
  | shl (x y : Nibble)
  /-- 9xy0, 40 R137. -/
  | sneReg (x y : Nibble)
  /-- Annn, 43 R190. -/
  | ldI (nnn : Addr)
  /-- Bnnn, 43 R191. -/
  | jpV0 (nnn : Addr)
  /-- Cxkk, 43 R192. -/
  | rnd (x : Nibble) (kk : Byte)
  /-- Dxyn, 44 R200. -/
  | drw (x y n : Nibble)
  /-- Ex9E, 45 R220. -/
  | skp (x : Nibble)
  /-- ExA1, 45 R221. -/
  | sknp (x : Nibble)
  /-- Fx07, 46 R230. -/
  | ldVxDt (x : Nibble)
  /-- Fx0A, 46 R231. -/
  | ldVxK (x : Nibble)
  /-- Fx15, 46 R232. -/
  | ldDtVx (x : Nibble)
  /-- Fx18, 46 R233. -/
  | ldStVx (x : Nibble)
  /-- Fx1E, 46 R234. -/
  | addIVx (x : Nibble)
  /-- Fx29, 46 R235. -/
  | ldFVx (x : Nibble)
  /-- Fx33, 46 R236. -/
  | ldBVx (x : Nibble)
  /-- Fx55, 46 R237. -/
  | ldMemVx (x : Nibble)
  /-- Fx65, 46 R238. -/
  | ldVxMem (x : Nibble)
  /-- 00FE, 47 R262. -/
  | low
  /-- 00FF, 47 R263. -/
  | high
  /-- 00Cn, 47 R264. -/
  | scd (n : Nibble)
  /-- 00FB, 47 R265. -/
  | scr
  /-- 00FC, 47 R266. -/
  | scl
  deriving DecidableEq, Repr

end Sys2Proof
end

