-- ==== Sys2Proof/WellFormed.lean ====
section
/-! DEFINITION. When an instruction is one of the machine's instructions, and when a choice of parameters is legal.
Operand fields need no check: their types have exactly the width of the field (30 R104, R106). -/

namespace Sys2Proof

/-- With `BNNN_MODE = unknown` no Bnnn word matches (30 R109), so JP V0 is then no instruction of the machine.
Every other instruction is one under every choice of parameters. -/
def Instr.wf (p : Params) (i : Instr) : Bool :=
  match i with
  | .jpV0 _ => p.bnnnMode == .jumpV0
  | _ => true

/-- `TICK_MS` is a positive number of milliseconds (00 R8). -/
def Params.wf (p : Params) : Bool := decide (0 < p.tickMs)

end Sys2Proof
end

