-- ==== Sys2Proof/Decode.lean ====
section
/-! DEFINITION. Fields, decoder and encoder (30 R100 to R112). Decoding is a pure function of the word and of
BNNN_MODE and LOW_NIBBLE_59 (R109), total on any bytes; a word of no pattern is rejected as unknown. -/

namespace Sys2Proof

/-- Why bytes are no instruction: `unknown` is 30 R109's Unknown(w), which the machine runs as a diagnostic (R110);
`truncated` means fewer than the two bytes a decoder always consumes (R100), and no fetch meets it. -/
inductive DecodeError where
  | unknown (w : Word)
  | truncated
  deriving DecidableEq, Repr

/-- `n1 = w[15:12]` (00 R13). -/
def fieldN1 (w : Word) : Nibble := w.extractLsb' 12 4
/-- `x = w[11:8]` (00 R13). -/
def fieldX (w : Word) : Nibble := w.extractLsb' 8 4
/-- `y = w[7:4]` (00 R13). -/
def fieldY (w : Word) : Nibble := w.extractLsb' 4 4
/-- `n = w[3:0]` (00 R13). -/
def fieldN (w : Word) : Nibble := w.extractLsb' 0 4
/-- `kk = w[7:0]` (00 R13). -/
def fieldKK (w : Word) : Byte := w.extractLsb' 0 8
/-- `nnn = w[11:0]` (00 R13). -/
def fieldNNN (w : Word) : Addr := w.extractLsb' 0 12

/-- Format A: family nibble, then `nnn` (30 R105). -/
def wordA (n1 : Nibble) (nnn : Addr) : Word := n1 ++ nnn
/-- Formats XK and X: family nibble, `x`, then the low byte (30 R105). -/
def wordXK (n1 x : Nibble) (kk : Byte) : Word := n1 ++ x ++ kk
/-- Formats XY and XYN: four nibbles (30 R105). -/
def wordXYN (n1 x y n : Nibble) : Word := n1 ++ x ++ y ++ n

/-- Family 0: the low 12 bits select (30 R107); 00Cn for every n (R112). -/
def decodeFamily0 (w : Word) : Except DecodeError Instr :=
  match fieldNNN w with
  | 0x0E0 => .ok .cls
  | 0x0EE => .ok .ret
  | 0x0FB => .ok .scr
  | 0x0FC => .ok .scl
  | 0x0FE => .ok .low
  | 0x0FF => .ok .high
  | _ => if fieldX w = 0x0 ∧ fieldY w = 0xC then .ok (.scd (fieldN w)) else .error (.unknown w)

/-- Family 8: the low nibble selects (42 R160). -/
def decodeFamily8 (w : Word) : Except DecodeError Instr :=
  match fieldN w with
  | 0x0 => .ok (.ldReg (fieldX w) (fieldY w))
  | 0x1 => .ok (.orReg (fieldX w) (fieldY w))
  | 0x2 => .ok (.andReg (fieldX w) (fieldY w))
  | 0x3 => .ok (.xorReg (fieldX w) (fieldY w))
  | 0x4 => .ok (.addReg (fieldX w) (fieldY w))
  | 0x5 => .ok (.sub (fieldX w) (fieldY w))
  | 0x6 => .ok (.shr (fieldX w) (fieldY w))
  | 0x7 => .ok (.subn (fieldX w) (fieldY w))
  | 0xE => .ok (.shl (fieldX w) (fieldY w))
  | _ => .error (.unknown w)

/-- Family E: the low byte selects (30 R107). -/
def decodeFamilyE (w : Word) : Except DecodeError Instr :=
  match fieldKK w with
  | 0x9E => .ok (.skp (fieldX w))
  | 0xA1 => .ok (.sknp (fieldX w))
  | _ => .error (.unknown w)

/-- Family F: the low byte selects (30 R107). -/
def decodeFamilyF (w : Word) : Except DecodeError Instr :=
  match fieldKK w with
  | 0x07 => .ok (.ldVxDt (fieldX w))
  | 0x0A => .ok (.ldVxK (fieldX w))
  | 0x15 => .ok (.ldDtVx (fieldX w))
  | 0x18 => .ok (.ldStVx (fieldX w))
  | 0x1E => .ok (.addIVx (fieldX w))
  | 0x29 => .ok (.ldFVx (fieldX w))
  | 0x33 => .ok (.ldBVx (fieldX w))
  | 0x55 => .ok (.ldMemVx (fieldX w))
  | 0x65 => .ok (.ldVxMem (fieldX w))
  | _ => .error (.unknown w)

/-- Families 5 and 9: the low nibble is 0, or is ignored, per LOW_NIBBLE_59 (30 R109). -/
def lowNibbleMatches (p : Params) (w : Word) : Bool := p.lowNibble59 == .ignore || fieldN w == 0

/-- The opcode map by family nibble (30 R107, R108, R109). -/
def decodeWord (p : Params) (w : Word) : Except DecodeError Instr :=
  match fieldN1 w with
  | 0x0 => decodeFamily0 w
  | 0x1 => .ok (.jp (fieldNNN w))
  | 0x2 => .ok (.call (fieldNNN w))
  | 0x3 => .ok (.seImm (fieldX w) (fieldKK w))
  | 0x4 => .ok (.sneImm (fieldX w) (fieldKK w))
  | 0x5 => if lowNibbleMatches p w then .ok (.seReg (fieldX w) (fieldY w)) else .error (.unknown w)
  | 0x6 => .ok (.ldImm (fieldX w) (fieldKK w))
  | 0x7 => .ok (.addImm (fieldX w) (fieldKK w))
  | 0x8 => decodeFamily8 w
  | 0x9 => if lowNibbleMatches p w then .ok (.sneReg (fieldX w) (fieldY w)) else .error (.unknown w)
  | 0xA => .ok (.ldI (fieldNNN w))
  | 0xB => if p.bnnnMode = .jumpV0 then .ok (.jpV0 (fieldNNN w)) else .error (.unknown w)
  | 0xC => .ok (.rnd (fieldX w) (fieldKK w))
  | 0xD => .ok (.drw (fieldX w) (fieldY w) (fieldN w))
  | 0xE => decodeFamilyE w
  | _ => decodeFamilyF w

/-- The instruction word of two bytes: the byte at the lower address is bits 15..8 (20 R80). -/
def wordOfBytes (hi lo : Byte) : Word := hi ++ lo

/-- The decoder on bytes: it always consumes two (30 R100) and gives back the rest. -/
def decode (p : Params) : List Byte → Except DecodeError (Instr × List Byte)
  | hi :: lo :: rest =>
    match decodeWord p (wordOfBytes hi lo) with
    | .ok i => .ok (i, rest)
    | .error e => .error e
  | _ => .error .truncated

/-- The word of an instruction: the pattern of 30 R108 with the fields at the places of R104 (R114).
SE Vx,Vy and SNE Vx,Vy have low nibble 0. -/
def encode : Instr → Word
  | .cls => 0x00E0
  | .ret => 0x00EE
  | .jp nnn => wordA 0x1 nnn
  | .call nnn => wordA 0x2 nnn
  | .seImm x kk => wordXK 0x3 x kk
  | .sneImm x kk => wordXK 0x4 x kk
  | .seReg x y => wordXYN 0x5 x y 0x0
  | .ldImm x kk => wordXK 0x6 x kk
  | .addImm x kk => wordXK 0x7 x kk
  | .ldReg x y => wordXYN 0x8 x y 0x0
  | .orReg x y => wordXYN 0x8 x y 0x1
  | .andReg x y => wordXYN 0x8 x y 0x2
  | .xorReg x y => wordXYN 0x8 x y 0x3
  | .addReg x y => wordXYN 0x8 x y 0x4
  | .sub x y => wordXYN 0x8 x y 0x5
  | .shr x y => wordXYN 0x8 x y 0x6
  | .subn x y => wordXYN 0x8 x y 0x7
  | .shl x y => wordXYN 0x8 x y 0xE
  | .sneReg x y => wordXYN 0x9 x y 0x0
  | .ldI nnn => wordA 0xA nnn
  | .jpV0 nnn => wordA 0xB nnn
  | .rnd x kk => wordXK 0xC x kk
  | .drw x y n => wordXYN 0xD x y n
  | .skp x => wordXK 0xE x 0x9E
  | .sknp x => wordXK 0xE x 0xA1
  | .ldVxDt x => wordXK 0xF x 0x07
  | .ldVxK x => wordXK 0xF x 0x0A
  | .ldDtVx x => wordXK 0xF x 0x15
  | .ldStVx x => wordXK 0xF x 0x18
  | .addIVx x => wordXK 0xF x 0x1E
  | .ldFVx x => wordXK 0xF x 0x29
  | .ldBVx x => wordXK 0xF x 0x33
  | .ldMemVx x => wordXK 0xF x 0x55
  | .ldVxMem x => wordXK 0xF x 0x65
  | .low => 0x00FE
  | .high => 0x00FF
  | .scd n => wordXYN 0x0 0x0 0xC n
  | .scr => 0x00FB
  | .scl => 0x00FC

/-- The two bytes of an instruction as memory holds them (20 R80). -/
def encodeBytes (i : Instr) : List Byte :=
  [(encode i).extractLsb' 8 8, (encode i).extractLsb' 0 8]

/-- A row of the opcode table (30 R108): the word matches where `w & mask = pattern`. -/
structure OpcodeRow where
  mask    : Word
  pattern : Word
  deriving DecidableEq, Repr

/-- The rows of spec/opcode_table.json that no parameter touches, families 0 to 7 (mask and match as the table
writes them). -/
def fixedRowsLow : List OpcodeRow :=
  [⟨0xFFFF, 0x00E0⟩, ⟨0xFFFF, 0x00EE⟩, ⟨0xFFFF, 0x00FE⟩, ⟨0xFFFF, 0x00FF⟩, ⟨0xFFF0, 0x00C0⟩,
   ⟨0xFFFF, 0x00FB⟩, ⟨0xFFFF, 0x00FC⟩, ⟨0xF000, 0x1000⟩, ⟨0xF000, 0x2000⟩, ⟨0xF000, 0x3000⟩,
   ⟨0xF000, 0x4000⟩, ⟨0xF000, 0x6000⟩, ⟨0xF000, 0x7000⟩]

/-- The rows of spec/opcode_table.json that no parameter touches, families 8 to F. -/
def fixedRowsHigh : List OpcodeRow :=
  [⟨0xF00F, 0x8000⟩, ⟨0xF00F, 0x8001⟩, ⟨0xF00F, 0x8002⟩, ⟨0xF00F, 0x8003⟩, ⟨0xF00F, 0x8004⟩,
   ⟨0xF00F, 0x8005⟩, ⟨0xF00F, 0x8006⟩, ⟨0xF00F, 0x8007⟩, ⟨0xF00F, 0x800E⟩, ⟨0xF000, 0xA000⟩,
   ⟨0xF000, 0xC000⟩, ⟨0xF000, 0xD000⟩, ⟨0xF0FF, 0xE09E⟩, ⟨0xF0FF, 0xE0A1⟩, ⟨0xF0FF, 0xF007⟩,
   ⟨0xF0FF, 0xF00A⟩, ⟨0xF0FF, 0xF015⟩, ⟨0xF0FF, 0xF018⟩, ⟨0xF0FF, 0xF01E⟩, ⟨0xF0FF, 0xF029⟩,
   ⟨0xF0FF, 0xF033⟩, ⟨0xF0FF, 0xF055⟩, ⟨0xF0FF, 0xF065⟩]

/-- The rows of 5xy0 and 9xy0: the mask is 0xF00F under strict, 0xF000 under ignore (30 R109 and the table's notes). -/
def compareRows : LowNibble59 → List OpcodeRow
  | .strict => [⟨0xF00F, 0x5000⟩, ⟨0xF00F, 0x9000⟩]
  | .ignore => [⟨0xF000, 0x5000⟩, ⟨0xF000, 0x9000⟩]

/-- The row of Bnnn, absent under unknown (30 R109 and the table's note). -/
def jumpV0Rows : BnnnMode → List OpcodeRow
  | .jumpV0 => [⟨0xF000, 0xB000⟩]
  | .unknown => []

/-- The rows of the opcode table under a choice of parameters (30 R108, R109). -/
def opcodeRows (p : Params) : List OpcodeRow :=
  fixedRowsLow ++ fixedRowsHigh ++ compareRows p.lowNibble59 ++ jumpV0Rows p.bnnnMode

/-- A word matches a row (30 R109). -/
def OpcodeRow.matchesWord (r : OpcodeRow) (w : Word) : Bool := w &&& r.mask == r.pattern

/-- The row of the opcode table an instruction belongs to, under the default parameters (mask and match as
spec/opcode_table.json writes them). -/
def Instr.row : Instr → OpcodeRow
  | .cls => ⟨0xFFFF, 0x00E0⟩
  | .ret => ⟨0xFFFF, 0x00EE⟩
  | .jp _ => ⟨0xF000, 0x1000⟩
  | .call _ => ⟨0xF000, 0x2000⟩
  | .seImm _ _ => ⟨0xF000, 0x3000⟩
  | .sneImm _ _ => ⟨0xF000, 0x4000⟩
  | .seReg _ _ => ⟨0xF00F, 0x5000⟩
  | .ldImm _ _ => ⟨0xF000, 0x6000⟩
  | .addImm _ _ => ⟨0xF000, 0x7000⟩
  | .ldReg _ _ => ⟨0xF00F, 0x8000⟩
  | .orReg _ _ => ⟨0xF00F, 0x8001⟩
  | .andReg _ _ => ⟨0xF00F, 0x8002⟩
  | .xorReg _ _ => ⟨0xF00F, 0x8003⟩
  | .addReg _ _ => ⟨0xF00F, 0x8004⟩
  | .sub _ _ => ⟨0xF00F, 0x8005⟩
  | .shr _ _ => ⟨0xF00F, 0x8006⟩
  | .subn _ _ => ⟨0xF00F, 0x8007⟩
  | .shl _ _ => ⟨0xF00F, 0x800E⟩
  | .sneReg _ _ => ⟨0xF00F, 0x9000⟩
  | .ldI _ => ⟨0xF000, 0xA000⟩
  | .jpV0 _ => ⟨0xF000, 0xB000⟩
  | .rnd _ _ => ⟨0xF000, 0xC000⟩
  | .drw _ _ _ => ⟨0xF000, 0xD000⟩
  | .skp _ => ⟨0xF0FF, 0xE09E⟩
  | .sknp _ => ⟨0xF0FF, 0xE0A1⟩
  | .ldVxDt _ => ⟨0xF0FF, 0xF007⟩
  | .ldVxK _ => ⟨0xF0FF, 0xF00A⟩
  | .ldDtVx _ => ⟨0xF0FF, 0xF015⟩
  | .ldStVx _ => ⟨0xF0FF, 0xF018⟩
  | .addIVx _ => ⟨0xF0FF, 0xF01E⟩
  | .ldFVx _ => ⟨0xF0FF, 0xF029⟩
  | .ldBVx _ => ⟨0xF0FF, 0xF033⟩
  | .ldMemVx _ => ⟨0xF0FF, 0xF055⟩
  | .ldVxMem _ => ⟨0xF0FF, 0xF065⟩
  | .low => ⟨0xFFFF, 0x00FE⟩
  | .high => ⟨0xFFFF, 0x00FF⟩
  | .scd _ => ⟨0xFFF0, 0x00C0⟩
  | .scr => ⟨0xFFFF, 0x00FB⟩
  | .scl => ⟨0xFFFF, 0x00FC⟩

/-- What the decoder reads, under the default parameters, from an instruction whose bits are `w`, numbered as
spec/opcode_table.json numbers them; every bit at `nbits` or above is 0. Each instruction is one word,
laid out high byte first (20 R80). -/
def decodeTableWord (nbits w : Nat) : Option Instr :=
  let word : Word := BitVec.ofNat 16 (w % 2 ^ nbits)
  match decode Params.default [word.extractLsb' 8 8, word.extractLsb' 0 8] with
  | .ok (i, _) => some i
  | .error _ => none

end Sys2Proof
end

