-- ==== Sys2Proof/Machine/State.lean ====
section
/-! DEFINITION. The machine's state as plain data, its reset value, and the reasons a step can stop.
Every piece of state of 10_state.md is here; INVENTORY.md lists each with its rule and reset value. -/

namespace Sys2Proof.Machine

/-- Memory and its loaded image (20 R70, 10 R52): the nonzero bytes, addresses strictly rising (`Memory.wf`).
An address not listed holds 0, the value construction and Load give it (10 R56, R57): log entry 13. -/
abbrev Memory := List Host.Cell

/-- The display mode (10 R45). -/
inductive Mode where
  | small
  | big
  deriving DecidableEq, Repr

/-- The frame buffer (10 R44): one row of pixels per entry, row 0 first; bit c of a row is column c, 1 lit.
The constructor is the display mode, so that a buffer always has its mode's dimensions (10 R46, R47): log entry 14. -/
inductive Surface where
  | small (rows : Vector (BitVec 64) 32)
  | big (rows : Vector (BitVec 128) 64)
  deriving DecidableEq, Repr

/-- The execution state (10 R55). -/
inductive Run where
  | stopped
  | running
  | stopping
  deriving DecidableEq, Repr

/-- The key wait `wait(x, a)` (10 R51): destination register and the address of the Fx0A. -/
structure Wait where
  x    : Nibble
  addr : Word
  deriving DecidableEq, Repr

/-- The kinds of fatal condition (60 R300). -/
inductive FatalKind where
  | illegalPc
  | addressOutOfBounds
  | glyphWrite
  | stackOverflow
  | stackUnderflow
  | keyIndexOutOfRange
  deriving DecidableEq, Repr

/-- A fault record `(kind, a, w, info)` (60 R301): `word` is none for a fetch fault, `info` per the table of R300.
`info` is a natural number: an offending address may lie past 2^16 (20 R83). -/
structure FatalRecord where
  kind : FatalKind
  addr : Word
  word : Option Word
  info : Option Nat
  deriving DecidableEq, Repr

/-- The kinds of diagnostic event (60 R310). -/
inductive DiagKind where
  | unknown
  | unsupported
  deriving DecidableEq, Repr

/-- The Load port's reply (70 R350, R351). -/
inductive LoadReply where
  | ok
  | outOfBounds (len : Nat)
  deriving DecidableEq, Repr

/-- One event on an output port (60 R333), and the snapshot reply (60 R332: the surface gives mode, W, H and disp). -/
inductive OutEvent where
  | diag (kind : DiagKind) (w a : Word)
  | geometry (width height : Nat)
  | beep
  | fatalReport (r : FatalRecord)
  | loadReply (r : LoadReply)
  | snapshot (d : Surface)
  deriving DecidableEq, Repr

/-- One agent step (20 R90, 60 R335): the engine's, the completion of a waiting Restart (60 R319), or a host call.
`setDebug` and `setCounter` are the outside's changes of the diagnostic state (60 R340): log entry 12. -/
inductive Turn where
  | engine
  | restartFinish
  | load (program : List Byte)
  | start
  | stop
  | restart
  | setKey (k : Nat) (pressed : Bool)
  | timeStep (ms : Rat)
  | snapshot
  | setDebug (on : Bool)
  | setCounter (n : Nat)
  deriving DecidableEq, Repr

/-- Why a step stops with a fault. No instruction raises one: a fatal condition of 60 R300 is taken as a next state. -/
inductive Fault where
  /-- Raised by the timer driver when TICK_MS is not positive (`Params.wf` fails), which 00 R8 excludes: it has
  no number of whole ticks. Safe: the machine stops where the spec describes no machine (log entry 8). -/
  | tickPeriodNotPositive
  deriving DecidableEq, Repr

/-- Why a step has no meaning. All but the first are host calls outside the host's contract, for which 93 part 1 says
'refuse' and 60 R334 names the host's duty; no instruction answers with one. -/
inductive Refusal where
  /-- Raised by exec's arm of an instruction that has no meaning yet. Safe: nothing can be proved of it. -/
  | notModelled (mnemonic : String)
  /-- Raised by Load while the core is not Stopped (70 R352). Safe (log entry 7). -/
  | loadWhileRunning
  /-- Raised by `set_key` with a key number above 15 (60 R330). Safe (log entry 7). -/
  | keyNumberOutOfRange (k : Nat)
  /-- Raised by `time_step` with a negative time (60 R324, R334). Safe (log entry 7). -/
  | negativeTime
  deriving DecidableEq, Repr

/-- The machine's state. The spec's own state first (10_state.md), then the model's own fields. -/
structure State where
  /-- V0..VF (10 R30). -/
  v          : Vector Byte 16
  /-- The address register I (10 R34). -/
  i          : Word
  /-- The program counter (10 R35). -/
  pc         : Word
  /-- The number of stack entries in use, 0..16 (10 R41). -/
  sp         : Fin 17
  /-- The call stack (10 R40). -/
  stack      : Vector Word 16
  /-- The delay timer DT (10 R42). -/
  dt         : Byte
  /-- The sound timer ST (10 R42). -/
  st         : Byte
  /-- The key latch (10 R43). -/
  key        : Vector Bool 16
  /-- The frame buffer and, with it, the display mode (10 R44, R45). -/
  disp       : Surface
  /-- Memory (20 R70). -/
  mem        : Memory
  /-- The loaded image (10 R52). -/
  image      : Memory
  /-- The timer accumulator, milliseconds (10 R49, 92 D23). -/
  acc        : Rat
  /-- The stop request (10 R50). -/
  stopReq    : Bool
  /-- The wait state (10 R51). -/
  waiting    : Option Wait
  /-- The fatal latch (10 R53). -/
  fatal      : Option FatalRecord
  /-- The execution state (10 R55). -/
  run        : Run
  /-- A Load has succeeded (10 R58). -/
  loaded     : Bool
  /-- A Start has taken effect since the last Load (10 R58). -/
  ran        : Bool
  /-- The debug toggle (10 R54, 60 R340). -/
  debug      : Bool
  /-- The frames/instructions per second counter (10 R54, 60 R340). -/
  counter    : Nat
  /-- How many Restart calls wait for the engine to stop (60 R319, log entry 6). -/
  restarts   : Nat
  /-- The implementation parameters (00 R8), fixed: no step changes them (log entry 1). -/
  params     : Params
  /-- MODEL's own: how many random draws were made; the next is `Config.rand8 draws` (43 R193, log entry 5). -/
  draws      : Nat
  /-- MODEL's own: the agent steps still to come, first next; when empty, the core goes on by itself
  (20 R90, log entry 2). -/
  turns      : List Turn
  /-- MODEL's own: the history of the output ports, newest first (60 R311, R333, log entry 11). -/
  out        : List OutEvent
  deriving DecidableEq, Repr

/-- The state at construction, which is power-on (10 R56, 70 R357): Stopped, with no program. What 10 R56 does not list
(`debug`, `counter`, `restarts` and the model's own fields) is log entry 4's; the parameters are the defaults of 00 R8. -/
def State.reset : State where
  v := Vector.replicate 16 0
  i := 0
  pc := 0x200
  sp := 0
  stack := Vector.replicate 16 0
  dt := 0
  st := 0
  key := Vector.replicate 16 false
  disp := .small (Vector.replicate 32 0)
  mem := []
  image := []
  acc := 0
  stopReq := false
  waiting := none
  fatal := none
  run := .stopped
  loaded := false
  ran := false
  debug := false
  counter := 0
  restarts := 0
  params := Params.default
  draws := 0
  turns := []
  out := []

end Sys2Proof.Machine
end

