-- ==== Sys2Proof/Machine/Ops.lean ====
section
/-! DEFINITION. The named operations over memory, registers, stack, frame buffer and output ports, and the raising of a
fatal condition, which is how this machine takes an exception (60 R300 to R302). -/

namespace Sys2Proof.Machine

/-! ## Memory -/

/-- The size of memory (00 R7, 20 R70). -/
def memSize : Nat := 4096

/-- The program load address and reset pc (00 R7 BASE). -/
def base : Nat := 0x200

/-- The length of the glyph table (00 R7 GLYPH_LEN). -/
def glyphLen : Nat := 80

/-- `mem[a]`. An address not listed holds 0 (10 R56, R57). -/
def Memory.read : Memory → Nat → Byte
  | [], _ => 0
  | (k, b) :: t, a => if k = a then b else Memory.read t a

/-- `mem[a] <- v`, in canonical form: writing 0 removes the entry. -/
def Memory.write : Memory → Nat → Byte → Memory
  | [], a, v => if v = 0 then [] else [(a, v)]
  | (k, b) :: t, a, v =>
    if a < k then (if v = 0 then (k, b) :: t else (a, v) :: (k, b) :: t)
    else if a = k then (if v = 0 then t else (a, v) :: t)
    else (k, b) :: Memory.write t a v

/-- The canonical form from address `lo` on. -/
def Memory.wfFrom : Nat → Memory → Bool
  | _, [] => true
  | lo, (k, b) :: t => decide (lo ≤ k) && decide (k < memSize) && decide (b ≠ 0) && Memory.wfFrom (k + 1) t

/-- The canonical form: addresses strictly rising and below 4096, no entry 0. -/
def Memory.wf (m : Memory) : Bool := Memory.wfFrom 0 m

/-- A run of bytes laid out from an address, in canonical form. -/
def Memory.placeFrom : Nat → List Byte → Memory
  | _, [] => []
  | a, b :: t => if b = 0 then Memory.placeFrom (a + 1) t else (a, b) :: Memory.placeFrom (a + 1) t

/-- Memory as Load leaves it: glyph table, program, zero fill (20 R72, 70 R350). -/
def Memory.loaded (glyphs : Vector Byte 80) (program : List Byte) : Memory :=
  Memory.placeFrom 0 glyphs.toList ++ Memory.placeFrom base program

/-- What a read of address `a` raises (20 R83). -/
def readFault (a : Nat) : Option FatalKind :=
  if memSize ≤ a then some .addressOutOfBounds else none

/-- What a write to address `a` raises (20 R84). -/
def writeFault (p : Params) (a : Nat) : Option FatalKind :=
  if memSize ≤ a then some .addressOutOfBounds
  else if a < glyphLen ∧ p.glyphWrite = .fault then some .glyphWrite
  else none

/-- The check of a range of addresses: the fault of the lowest offending one (20 R85). -/
def firstFault (faultAt : Nat → Option FatalKind) : Nat → Nat → Option (FatalKind × Nat)
  | _, 0 => none
  | a, n + 1 =>
    match faultAt a with
    | some kind => some (kind, a)
    | none => firstFault faultAt (a + 1) n

/-- A checked write (20 R84): one below 80 is dropped (GLYPH_WRITE = ignore; under fault the check has raised). -/
def Memory.store (m : Memory) (a : Nat) (b : Byte) : Memory :=
  if a < glyphLen ∨ memSize ≤ a then m else m.write a b

/-- Checked writes of a run of bytes, lowest address first. -/
def Memory.storeAll : Memory → Nat → List Byte → Memory
  | m, _, [] => m
  | m, a, b :: t => Memory.storeAll (m.store a b) (a + 1) t

/-- The `n` bytes from address `a`. -/
def Memory.readAll (m : Memory) : Nat → Nat → List Byte
  | _, 0 => []
  | a, n + 1 => m.read a :: Memory.readAll m (a + 1) n

/-! ## Registers -/

/-- The register number of VF (10 R32). -/
def vf : Nibble := 0xF

/-- `V[x]` (10 R30). -/
def State.reg (s : State) (x : Nibble) : Byte := s.v[x.toNat]'x.isLt

/-- `V[x] <- b`. No register is hardwired (10 R30). -/
def State.setReg (s : State) (x : Nibble) (b : Byte) : State := { s with v := s.v.set x.toNat b x.isLt }

/-- All sixteen registers change. -/
def State.setRegs (s : State) (v : Vector Byte 16) : State := { s with v := v }

/-- `I <- a` (10 R34). -/
def State.setI (s : State) (a : Word) : State := { s with i := a }

/-- `pc <- a` (10 R35). -/
def State.setPc (s : State) (a : Word) : State := { s with pc := a }

/-- The advance and the skip: `pc <- (pc + 2) mod 2^16` (10 R36). -/
def State.advancePc (s : State) : State := s.setPc (s.pc + 2)

/-- The address of the executing instruction: on entry to a meaning `pc = a + 2 mod 2^16` (30 R101; log entry 10). -/
def State.instrAddr (s : State) : Word := s.pc - 2

/-- `DT <- b` (10 R42). -/
def State.setDt (s : State) (b : Byte) : State := { s with dt := b }

/-- `ST <- b` (10 R42). -/
def State.setSt (s : State) (b : Byte) : State := { s with st := b }

/-- Memory after stores. -/
def State.setMem (s : State) (m : Memory) : State := { s with mem := m }

/-- The wait state (10 R51). -/
def State.setWaiting (s : State) (w : Option Wait) : State := { s with waiting := w }

/-- A fresh draw `Rand8()` counts as made (43 R193). -/
def State.countDraw (s : State) : State := { s with draws := s.draws + 1 }

/-- `V[i] <- MemRead(a + i, 1)` for the first `n` registers (46 R238). -/
def loadRegs (m : Memory) (a : Nat) : Nat → Vector Byte 16 → Vector Byte 16
  | 0, v => v
  | n + 1, v => (loadRegs m a n v).setIfInBounds n (m.read (a + n))

/-- V0..V(n-1) as bytes (46 R237). -/
def State.firstRegs (s : State) (n : Nat) : List Byte := s.v.toList.take n

/-! ## Call stack -/

/-- A push with room: `stack[sp] <- a; sp <- sp + 1` (10 R41). -/
def State.push (s : State) (a : Word) (h : s.sp.val < 16) : State :=
  { s with stack := s.stack.set s.sp.val a h, sp := ⟨s.sp.val + 1, Nat.succ_lt_succ h⟩ }

/-- The slot a pop reads, `stack[sp - 1]` (10 R41). -/
def State.top (s : State) : Word := s.stack[s.sp.val - 1]'(Nat.lt_of_le_of_lt (Nat.sub_le_sub_right (Nat.le_of_lt_succ s.sp.isLt) 1) (by decide))

/-- `sp <- sp - 1` (10 R41); the slot keeps its value (40 R131). -/
def State.dropTop (s : State) : State :=
  { s with sp := ⟨s.sp.val - 1, Nat.lt_of_le_of_lt (Nat.sub_le _ _) s.sp.isLt⟩ }

/-! ## Frame buffer -/

/-- `W` (10 R47). -/
def Mode.width : Mode → Nat
  | .small => 64
  | .big => 128

/-- `H` (10 R47). -/
def Mode.height : Mode → Nat
  | .small => 32
  | .big => 64

/-- An all-unlit frame buffer of a mode's size (10 R46). -/
def Surface.blank : Mode → Surface
  | .small => .small (Vector.replicate 32 0)
  | .big => .big (Vector.replicate 64 0)

/-- The mode a frame buffer belongs to. -/
def Surface.mode : Surface → Mode
  | .small _ => .small
  | .big _ => .big

/-- `disp[r][c]` (10 R44); outside the buffer there is no pixel, and the answer is false. -/
def Surface.pixel : Surface → Nat → Nat → Bool
  | .small rows, r, c => (rows[r]?.getD 0).getLsbD c
  | .big rows, r, c => (rows[r]?.getD 0).getLsbD c

/-- `disp[r][c] <- disp[r][c] ^ 1`. -/
def Surface.flip : Surface → Nat → Nat → Surface
  | .small rows, r, c => .small (rows.setIfInBounds r (rows[r]?.getD 0 ^^^ BitVec.twoPow 64 c))
  | .big rows, r, c => .big (rows.setIfInBounds r (rows[r]?.getD 0 ^^^ BitVec.twoPow 128 c))

/-- `mode` (10 R45). -/
def State.mode (s : State) : Mode := s.disp.mode

/-- The frame buffer changes. -/
def State.setDisp (s : State) (d : Surface) : State := { s with disp := d }

/-! ## Key latch -/

/-- `key[k]` (10 R43); a number above 15 names no key, and the answer is false. -/
def State.keyPressed (s : State) (k : Nat) : Bool := s.key[k]?.getD false

/-- The lowest-numbered pressed key (46 R231). -/
def State.firstPressed (s : State) : Option Nat := (List.range 16).find? fun k => s.keyPressed k

/-! ## Output ports -/

/-- `emit`: the event joins the output history (60 R311, R333). -/
def State.emit (s : State) (e : OutEvent) : State := { s with out := e :: s.out }

/-- `emit Diag(Unsupported, w, a)` for the executing instruction (47 R264 to R266; log entries 9, 10). -/
def State.diagUnsupported (s : State) (i : Instr) : State :=
  s.emit (.diag .unsupported (encode i) s.instrAddr)

/-- `emit Diag(Unknown, w, a)` (30 R110). -/
def State.diagUnknown (s : State) (w a : Word) : State := s.emit (.diag .unknown w a)

/-- `set_mode(m)` (47 R260). -/
def State.setMode (s : State) (m : Mode) : State :=
  if m = s.mode then s else (s.setDisp (Surface.blank m)).emit (.geometry m.width m.height)

/-! ## Taking an exception, and leaving it -/

/-- `raise Fatal(kind, info)` at address `a` with word `w` (60 R301). It is given the state as the fetch left it, before any
write of the instruction, so that setting `pc` back to `a` discards every write of the iteration (60 R302). -/
def State.raiseFatal (s : State) (kind : FatalKind) (a : Word) (w : Option Word) (info : Option Nat) : State :=
  { s with
    pc := a
    fatal := some ⟨kind, a, w, info⟩
    run := .stopped
    stopReq := false
    out := .fatalReport ⟨kind, a, w, info⟩ :: s.out }

/-- A fatal condition raised by the executing instruction (log entries 9, 10). -/
def State.raiseIn (s : State) (i : Instr) (kind : FatalKind) (info : Option Nat) : State :=
  s.raiseFatal kind s.instrAddr (some (encode i)) info

/-- What Load and Restart both reset (70 R350, R356). Leaving the stopped state after a fatal condition is this and
nothing else: the machine has no return from a trap (60 R314). -/
def State.clearProgramState (s : State) : State :=
  { s with
    v := Vector.replicate 16 0
    i := 0
    pc := BitVec.ofNat 16 base
    sp := 0
    stack := Vector.replicate 16 0
    dt := 0
    st := 0
    key := Vector.replicate 16 false
    stopReq := false
    waiting := none
    fatal := none }

end Sys2Proof.Machine
end

