-- ==== Sys2Proof/Machine/Operands.lean ====
section
/-! DEFINITION. Operand forms: immediates, the address through I, the shift source, the order of the flag and
result writes, and the conditional skip (30 R106, 42 R161, R162, 46 R239). -/

namespace Sys2Proof.Machine

/-- `zext_16(nnn)` (30 R106). -/
def zextAddr (nnn : Addr) : Word := nnn.setWidth 16

/-- A register zero-extended to 16 bits, to be added to a word (43 R191, 46 R234). -/
def zextByte (b : Byte) : Word := b.setWidth 16

/-- The lowest address of a range through `I`, an unbounded natural (20 R83). -/
def State.addrI (s : State) : Nat := s.i.toNat

/-- How many registers Fx55 and Fx65 move: V0..Vx, both ends (46 R239). -/
def regCount (x : Nibble) : Nat := x.toNat + 1

/-- `I` after Fx55 and Fx65, by LDST_I_MODE (46 R237, R238). -/
def State.stepI (s : State) (x : Nibble) : State :=
  match s.params.ldstIMode with
  | .unchanged => s
  | .increment => s.setI (s.i + BitVec.ofNat 16 (regCount x))

/-- The shift source, by SHIFT_SOURCE (42 R162). -/
def shiftSrc (p : Params) (x y : Nibble) : Nibble :=
  match p.shiftSource with
  | .vx => x
  | .vy => y

/-- The address of a hexadecimal digit's glyph (20 R74, 46 R235). -/
def glyphAddr (b : Byte) : Word := BitVec.ofNat 16 (5 * (b.toNat % 16))

/-- The hundreds, tens and units digits, in that order (46 R236). -/
def bcdDigits (b : Byte) : List Byte :=
  [BitVec.ofNat 8 (b.toNat / 100), BitVec.ofNat 8 (b.toNat / 10 % 10), BitVec.ofNat 8 (b.toNat % 10)]

/-- The conditional skip: exactly two more bytes (40 R134). -/
def State.skipIf (s : State) (c : Bool) : State := if c then s.advancePc else s

/-- A flag-writing operation on `V[x]`, with operands `V[a]` and `V[b]`: VF first and `V[x]` second, the operands read
once or again after the flag write, by ALU_VF_ORDER (42 R161). -/
def State.writeFlagAndResult (s : State) (x a b : Nibble) (flag : Byte → Byte → Byte) (result : Byte → Byte → Byte) : State :=
  match s.params.aluVfOrder with
  | .sampled =>
    (s.setReg vf (flag (s.reg a) (s.reg b))).setReg x (result (s.reg a) (s.reg b))
  | .reread =>
    let s' := s.setReg vf (flag (s.reg a) (s.reg b))
    s'.setReg x (result (s'.reg a) (s'.reg b))

end Sys2Proof.Machine
end

