-- ==== Sys2Proof/Machine/Flags.lean ====
section
/-! DEFINITION. The flag and result functions of the flag-writing instructions (42 R163, R168 to R172). The collision flag
of DRW is computed by the blitter (44 R200). -/

namespace Sys2Proof.Machine

/-- A flag as VF holds it: 1 or 0. -/
def flagByte (c : Bool) : Byte := if c then 1 else 0

/-- ADD's carry: the unbounded sum exceeds 255 (42 R168). -/
def addFlag (vx vy : Byte) : Byte := flagByte (decide (255 < vx.toNat + vy.toNat))

/-- ADD's result (42 R168). -/
def addResult (vx vy : Byte) : Byte := vx + vy

/-- SUB's no-borrow: the minuend is strictly greater (42 R169). -/
def subFlag (vx vy : Byte) : Byte := flagByte (decide (vy.toNat < vx.toNat))

/-- SUB's result (42 R169). -/
def subResult (vx vy : Byte) : Byte := vx - vy

/-- SUBN's flag, by SUBN_MODE (42 R171). -/
def subnFlag (p : Params) (vx vy : Byte) : Byte :=
  match p.subnMode with
  | .asSource => subFlag vx vy
  | .reversed => subFlag vy vx

/-- SUBN's result, by SUBN_MODE (42 R171). -/
def subnResult (p : Params) (vx vy : Byte) : Byte :=
  match p.subnMode with
  | .asSource => subResult vx vy
  | .reversed => subResult vy vx

/-- SHR's flag: the bit shifted out, bit 0 (42 R170). -/
def shrFlag (b : Byte) : Byte := flagByte (b.getLsbD 0)

/-- SHR's result (42 R170). -/
def shrResult (b : Byte) : Byte := b >>> 1

/-- SHL's flag: the bit shifted out, bit 7 (42 R172). -/
def shlFlag (b : Byte) : Byte := flagByte (b.getLsbD 7)

/-- SHL's result (42 R172). -/
def shlResult (b : Byte) : Byte := b <<< 1

end Sys2Proof.Machine
end

