-- ==== Sys2Proof/Machine/AddressRandom.lean ====
section
/-! DEFINITION. Address register, jump with offset and random (43_address_random.md). -/

namespace Sys2Proof.Machine

/-- Annn LD I, nnn (43 R190). -/
def execLdI (nnn : Addr) (s : State) : Host.Outcome State Fault Refusal :=
  .next (s.setI (zextAddr nnn))

/-- Bnnn JP V0, nnn, by BNNN_MODE (43 R191). Under `unknown` the decoder already rejects the word (30 R109), and the
meaning is R191's diagnostic. -/
def execJpV0 (nnn : Addr) (s : State) : Host.Outcome State Fault Refusal :=
  match s.params.bnnnMode with
  | .jumpV0 => .next (s.setPc (zextAddr nnn + zextByte (s.reg 0)))
  | .unknown => .next (s.diagUnknown (encode (.jpV0 nnn)) s.instrAddr)

/-- Cxkk RND Vx, kk (43 R192): one fresh draw, the free value `Config.rand8` at the draw's number (43 R193). -/
def execRnd (x : Nibble) (kk : Byte) (s : State) : Host.Outcome State Fault Refusal :=
  .next ((s.setReg x (Config.rand8 s.draws &&& kk)).countDraw)

end Sys2Proof.Machine
end

