-- ==== Sys2Proof/Machine/Alu.lean ====
section
/-! DEFINITION. The register-register ALU family (42_alu.md). -/

namespace Sys2Proof.Machine

/-- 8xy0 LD Vx, Vy (42 R164). -/
def execLdReg (x y : Nibble) (s : State) : Host.Outcome State Fault Refusal :=
  .next (s.setReg x (s.reg y))

/-- 8xy1 OR (42 R165): VF unchanged unless it is the destination. -/
def execOrReg (x y : Nibble) (s : State) : Host.Outcome State Fault Refusal :=
  .next (s.setReg x (s.reg x ||| s.reg y))

/-- 8xy2 AND (42 R166). -/
def execAndReg (x y : Nibble) (s : State) : Host.Outcome State Fault Refusal :=
  .next (s.setReg x (s.reg x &&& s.reg y))

/-- 8xy3 XOR (42 R167). -/
def execXorReg (x y : Nibble) (s : State) : Host.Outcome State Fault Refusal :=
  .next (s.setReg x (s.reg x ^^^ s.reg y))

/-- 8xy4 ADD (42 R168). -/
def execAddReg (x y : Nibble) (s : State) : Host.Outcome State Fault Refusal :=
  .next (s.writeFlagAndResult x x y addFlag addResult)

/-- 8xy5 SUB (42 R169). -/
def execSub (x y : Nibble) (s : State) : Host.Outcome State Fault Refusal :=
  .next (s.writeFlagAndResult x x y subFlag subResult)

/-- 8xy6 SHR (42 R170): both operands of the shared operation are the shift source. -/
def execShr (x y : Nibble) (s : State) : Host.Outcome State Fault Refusal :=
  .next (s.writeFlagAndResult x (shiftSrc s.params x y) (shiftSrc s.params x y) (fun b _ => shrFlag b) (fun b _ => shrResult b))

/-- 8xy7 SUBN (42 R171). -/
def execSubn (x y : Nibble) (s : State) : Host.Outcome State Fault Refusal :=
  .next (s.writeFlagAndResult x x y (subnFlag s.params) (subnResult s.params))

/-- 8xyE SHL (42 R172). -/
def execShl (x y : Nibble) (s : State) : Host.Outcome State Fault Refusal :=
  .next (s.writeFlagAndResult x (shiftSrc s.params x y) (shiftSrc s.params x y) (fun b _ => shlFlag b) (fun b _ => shlResult b))

end Sys2Proof.Machine
end

