-- ==== Sys2Proof/Machine/Control.lean ====
section
/-! DEFINITION. Clear, return, jump, call and skips (40_control.md). On entry to a meaning `pc` is already
`a + 2` (30 R101). -/

namespace Sys2Proof.Machine

/-- 00E0 CLS (40 R130). -/
def execCls (s : State) : Host.Outcome State Fault Refusal :=
  .next (s.setDisp (Surface.blank s.mode))

/-- 00EE RET (40 R131). -/
def execRet (s : State) : Host.Outcome State Fault Refusal :=
  if s.sp = 0 then .next (s.raiseIn .ret .stackUnderflow none)
  else .next (s.dropTop.setPc s.top)

/-- 1nnn JP (40 R132). -/
def execJp (nnn : Addr) (s : State) : Host.Outcome State Fault Refusal :=
  .next (s.setPc (zextAddr nnn))

/-- 2nnn CALL (40 R133): the pushed word is the advanced `pc`. -/
def execCall (nnn : Addr) (s : State) : Host.Outcome State Fault Refusal :=
  if h : s.sp.val < 16 then .next ((s.push s.pc h).setPc (zextAddr nnn))
  else .next (s.raiseIn (.call nnn) .stackOverflow none)

/-- 3xkk SE Vx, kk (40 R134). -/
def execSeImm (x : Nibble) (kk : Byte) (s : State) : Host.Outcome State Fault Refusal :=
  .next (s.skipIf (s.reg x == kk))

/-- 4xkk SNE Vx, kk (40 R135). -/
def execSneImm (x : Nibble) (kk : Byte) (s : State) : Host.Outcome State Fault Refusal :=
  .next (s.skipIf (s.reg x != kk))

/-- 5xy0 SE Vx, Vy (40 R136). -/
def execSeReg (x y : Nibble) (s : State) : Host.Outcome State Fault Refusal :=
  .next (s.skipIf (s.reg x == s.reg y))

/-- 9xy0 SNE Vx, Vy (40 R137). -/
def execSneReg (x y : Nibble) (s : State) : Host.Outcome State Fault Refusal :=
  .next (s.skipIf (s.reg x != s.reg y))

end Sys2Proof.Machine
end

