-- ==== Sys2Proof/Machine/DisplayMode.lean ====
section
/-! DEFINITION. The display-mode and scroll sub-family (47_display_mode.md). -/

namespace Sys2Proof.Machine

/-- 00FE LOW (47 R262). -/
def execLow (s : State) : Host.Outcome State Fault Refusal := .next (s.setMode .small)

/-- 00FF HIGH (47 R263). -/
def execHigh (s : State) : Host.Outcome State Fault Refusal := .next (s.setMode .big)

/-- 00Cn SCD n (47 R264): recognised and not executed. -/
def execScd (n : Nibble) (s : State) : Host.Outcome State Fault Refusal := .next (s.diagUnsupported (.scd n))

/-- 00FB SCR (47 R265): recognised and not executed. -/
def execScr (s : State) : Host.Outcome State Fault Refusal := .next (s.diagUnsupported .scr)

/-- 00FC SCL (47 R266): recognised and not executed. -/
def execScl (s : State) : Host.Outcome State Fault Refusal := .next (s.diagUnsupported .scl)

end Sys2Proof.Machine
end

