-- ==== Sys2Proof/Machine/FxTransfer.lean ====
section
/-! DEFINITION. The timer and register transfer family (46_fx_transfer.md). -/

namespace Sys2Proof.Machine

/-- Fx07 LD Vx, DT (46 R230). -/
def execLdVxDt (x : Nibble) (s : State) : Host.Outcome State Fault Refusal :=
  .next (s.setReg x s.dt)

/-- Fx0A LD Vx, K (46 R231): it sets the wait state; the engine's polls end it. -/
def execLdVxK (x : Nibble) (s : State) : Host.Outcome State Fault Refusal :=
  .next (s.setWaiting (some ⟨x, s.instrAddr⟩))

/-- Fx15 LD DT, Vx (46 R232). -/
def execLdDtVx (x : Nibble) (s : State) : Host.Outcome State Fault Refusal :=
  .next (s.setDt (s.reg x))

/-- Fx18 LD ST, Vx (46 R233): no beep. -/
def execLdStVx (x : Nibble) (s : State) : Host.Outcome State Fault Refusal :=
  .next (s.setSt (s.reg x))

/-- Fx1E ADD I, Vx (46 R234): mod 2^16, no flag. -/
def execAddIVx (x : Nibble) (s : State) : Host.Outcome State Fault Refusal :=
  .next (s.setI (s.i + zextByte (s.reg x)))

/-- Fx29 LD F, Vx (46 R235). -/
def execLdFVx (x : Nibble) (s : State) : Host.Outcome State Fault Refusal :=
  .next (s.setI (glyphAddr (s.reg x)))

/-- Fx33 LD B, Vx (46 R236). -/
def execLdBVx (x : Nibble) (s : State) : Host.Outcome State Fault Refusal :=
  match firstFault (writeFault s.params) s.addrI 3 with
  | some (kind, a) => .next (s.raiseIn (.ldBVx x) kind (some a))
  | none => .next (s.setMem (s.mem.storeAll s.addrI (bcdDigits (s.reg x))))

/-- Fx55 LD [I], Vx (46 R237). -/
def execLdMemVx (x : Nibble) (s : State) : Host.Outcome State Fault Refusal :=
  match firstFault (writeFault s.params) s.addrI (regCount x) with
  | some (kind, a) => .next (s.raiseIn (.ldMemVx x) kind (some a))
  | none => .next ((s.setMem (s.mem.storeAll s.addrI (s.firstRegs (regCount x)))).stepI x)

/-- Fx65 LD Vx, [I] (46 R238). -/
def execLdVxMem (x : Nibble) (s : State) : Host.Outcome State Fault Refusal :=
  match firstFault readFault s.addrI (regCount x) with
  | some (kind, a) => .next (s.raiseIn (.ldVxMem x) kind (some a))
  | none => .next ((s.setRegs (loadRegs s.mem s.addrI (regCount x) s.v)).stepI x)

end Sys2Proof.Machine
end

