-- ==== Sys2Proof/Machine/Keys.lean ====
section
/-! DEFINITION. Key tests (45_keys.md). -/

namespace Sys2Proof.Machine

/-- Ex9E SKP Vx (45 R220, R222). -/
def execSkp (x : Nibble) (s : State) : Host.Outcome State Fault Refusal :=
  if 15 < (s.reg x).toNat then .next (s.raiseIn (.skp x) .keyIndexOutOfRange (some (s.reg x).toNat))
  else .next (s.skipIf (s.keyPressed (s.reg x).toNat))

/-- ExA1 SKNP Vx (45 R221, R222). -/
def execSknp (x : Nibble) (s : State) : Host.Outcome State Fault Refusal :=
  if 15 < (s.reg x).toNat then .next (s.raiseIn (.sknp x) .keyIndexOutOfRange (some (s.reg x).toNat))
  else .next (s.skipIf (!s.keyPressed (s.reg x).toNat))

end Sys2Proof.Machine
end

