-- ==== Sys2Proof/Machine/RegisterImmediate.lean ====
section
/-! DEFINITION. Register-immediate instructions (41_register_immediate.md). -/

namespace Sys2Proof.Machine

/-- 6xkk LD Vx, kk (41 R150). -/
def execLdImm (x : Nibble) (kk : Byte) (s : State) : Host.Outcome State Fault Refusal :=
  .next (s.setReg x kk)

/-- 7xkk ADD Vx, kk (41 R151): no flag. -/
def execAddImm (x : Nibble) (kk : Byte) (s : State) : Host.Outcome State Fault Refusal :=
  .next (s.setReg x (s.reg x + kk))

end Sys2Proof.Machine
end

