-- ==== Sys2Proof/Machine/Sprite.lean ====
section
/-! DEFINITION. The XOR blitter and DRW (44_sprite.md). -/

namespace Sys2Proof.Machine

/-- The frame buffer and the collision flag `col` while a sprite is drawn (44 R200). -/
structure Blit where
  disp : Surface
  col  : Bool
  deriving DecidableEq, Repr

/-- One set sprite bit on one pixel: a lit pixel records a collision, and the pixel is inverted (44 R200). -/
def Blit.hit (t : Blit) (r c : Nat) : Blit :=
  ⟨t.disp.flip r c, t.col || t.disp.pixel r c⟩

/-- One bit of a row: `b` = 0 is the leftmost pixel, the byte's bit 7 (44 R202); the column wraps. -/
def Blit.bit (t : Blit) (r px : Nat) (row : Byte) (b : Nat) : Blit :=
  if row.getLsbD (7 - b) then t.hit r ((px + b) % t.disp.mode.width) else t

/-- The first `k` bits of a row, from the left. -/
def Blit.bits (t : Blit) (r px : Nat) (row : Byte) : Nat → Blit
  | 0 => t
  | k + 1 => (Blit.bits t r px row k).bit r px row k

/-- The rows of a sprite, top first, from row `py`; the row wraps (44 R200). -/
def Blit.rows (t : Blit) (px py : Nat) : List Byte → Blit
  | [] => t
  | row :: rest => Blit.rows (t.bits (py % t.disp.mode.height) px row 8) px (py + 1) rest

/-- Dxyn DRW Vx, Vy, n (44 R200, R201): bounds first, coordinates before VF is written, VF last. -/
def execDrw (x y n : Nibble) (s : State) : Host.Outcome State Fault Refusal :=
  match firstFault readFault s.addrI n.toNat with
  | some (kind, a) => .next (s.raiseIn (.drw x y n) kind (some a))
  | none =>
    let t := Blit.rows ⟨s.disp, false⟩ (s.reg x).toNat (s.reg y).toNat (s.mem.readAll s.addrI n.toNat)
    .next ((s.setDisp t.disp).setReg vf (flagByte t.col))

end Sys2Proof.Machine
end

