-- ==== Sys2Proof/Machine/Engine.lean ====
section
/-! DEFINITION. The engine: fetch and the iteration (30 R101), the poll of a key wait (46 R231), and when the engine makes
no step (60 R303, R342). -/

namespace Sys2Proof.Machine

/-- The two bytes at `pc`, lower address first (20 R80, R82). -/
def State.fetchBytes (s : State) : List Byte := [s.mem.read s.pc.toNat, s.mem.read (s.pc.toNat + 1)]

/-- The fetched word, big-endian (20 R80). -/
def State.fetchWord (s : State) : Word :=
  wordOfBytes (s.mem.read s.pc.toNat) (s.mem.read (s.pc.toNat + 1))

/-- What a fetch at `pc` raises, and its `info`: IllegalPc first (10 R39), then the bounds of both bytes together
(20 R85, 30 R102, 60 R304). -/
def State.fetchFault (s : State) : Option (FatalKind × Nat) :=
  if s.params.pcLowCheck = .fault ∧ s.pc.toNat < base then some (.illegalPc, s.pc.toNat)
  else firstFault readFault s.pc.toNat 2

/-- The Stop request is honoured (60 R318). -/
def State.observeStop (s : State) : State := { s with run := .stopped, stopReq := false }

/-- One iteration (30 R101): the Stop request, the fetch checks, the fetch, the advance of `pc`, the instruction. A word
that is no instruction is an unknown opcode: a diagnostic and nothing else (30 R110). -/
def iteration (s : State) : Host.Outcome State Fault Refusal :=
  if s.stopReq then .next s.observeStop
  else
    match s.fetchFault with
    | some (kind, info) => .next (s.raiseFatal kind s.pc none (some info))
    | none =>
      match decode s.params s.fetchBytes with
      | .ok (i, _) => exec i s.advancePc
      | .error _ => .next (s.advancePc.diagUnknown s.fetchWord s.pc)

/-- One poll of the wait `w` (46 R231): cancelled by a Stop request, which is checked first, or ended by the lowest pressed
key. With neither it is not enabled, and nothing changes. -/
def State.poll (s : State) (w : Wait) : State :=
  if s.stopReq then ((s.setWaiting none).setPc w.addr).observeStop
  else
    match s.firstPressed with
    | some k => (s.setReg w.x (BitVec.ofNat 8 k)).setWaiting none
    | none => s

/-- One engine step: a poll while it waits, an iteration otherwise. Stopped, or with a fatal record latched, it has no step
(60 R303, R342), and the state stays as it is: log entries 3 and 17. -/
def engineStep (s : State) : Host.Outcome State Fault Refusal :=
  if s.run = .stopped ∨ s.fatal.isSome then .next s
  else
    match s.waiting with
    | some w => .next (s.poll w)
    | none => iteration s

/-- An instruction word put where the next engine step fetches it, with the core ready to fetch: the stand-in for the
host's Load and Start (log entry 15). `pc` is kept where a fetch there is legal. -/
def State.placeWord (s : State) (w : Word) : State :=
  let a : Word := if s.fetchFault = none then s.pc else BitVec.ofNat 16 base
  { s with
    mem := (s.mem.write a.toNat (w.extractLsb' 8 8)).write (a.toNat + 1) (w.extractLsb' 0 8)
    pc := a
    run := .running
    stopReq := false
    waiting := none
    fatal := none
    restarts := 0
    turns := [] }

end Sys2Proof.Machine
end

