-- ==== Sys2Proof/Machine/HostPorts.lean ====
section
/-! DEFINITION. The other agents: the lifecycle and loader ports (60 R315 to R320, 70 R350 to R356), the timer driver
(60 R325), the key port (R330), the presenter's port (R332), and the order of turns (20 R90). -/

namespace Sys2Proof.Machine

/-- The longest program Load accepts: the room from 0x200 to 0xFFF (70 R350). -/
def maxProgram : Nat := memSize - base

/-- Load (70 R350 to R353). The whole new state is built in one step; `acc` stays. -/
def State.load (s : State) (program : List Byte) : State :=
  if maxProgram < program.length then s.emit (.loadReply (.outOfBounds program.length))
  else
    let s' : State := { s.clearProgramState with
      mem := Memory.loaded s.params.glyphs program
      image := Memory.loaded s.params.glyphs program
      disp := Surface.blank .small
      loaded := true
      ran := false }
    (s'.emit (.geometry Mode.small.width Mode.small.height)).emit (.loadReply .ok)

/-- Start (60 R316). -/
def State.start (s : State) : State :=
  if s.run = .stopped ∧ s.loaded = true ∧ s.fatal = none then { s with run := .running, ran := true } else s

/-- Stop (60 R317). -/
def State.stop (s : State) : State :=
  if s.run = .running then { s with stopReq := true, run := .stopping } else s

/-- The reset step of Restart (70 R356). -/
def State.resetForRestart (s : State) : State :=
  let s' : State := { s.clearProgramState with
    mem := match s.params.restartMemory with
      | .reloadImage => s.image
      | .keep => s.mem
    disp := Surface.blank .small }
  match s.mode with
  | .small => s'
  | .big => s'.emit (.geometry Mode.small.width Mode.small.height)

/-- The end of a Restart, with the engine Stopped: the reset and the Start are one step (60 R319). -/
def State.resetAndStart (s : State) : State := { s.resetForRestart with run := .running, ran := true }

/-- A waiting Restart may end (60 R319). -/
def State.restartReady (s : State) : Bool := decide (s.restarts ≠ 0) && decide (s.run = .stopped)

/-- A waiting Restart ends. -/
def State.finishRestart (s : State) : State := { s.resetAndStart with restarts := s.restarts - 1 }

/-- Restart (60 R319): ignored unless enabled; from Stopped it ends at once; otherwise it asks the engine to stop and
waits (log entry 6). -/
def State.restart (s : State) : State :=
  match s.run with
  | .stopped => if s.ran then s.resetAndStart else s
  | .running => { s.stop with restarts := s.restarts + 1 }
  | .stopping => { s with restarts := s.restarts + 1 }

/-- The Load port (70 R352): only while Stopped. -/
def loadPort (s : State) (program : List Byte) : Host.Outcome State Fault Refusal :=
  if s.run = .stopped then .next (s.load program) else .refused .loadWhileRunning

/-- Whole ticks in an accumulated time (60 R325). -/
def wholeTicks (p : Params) (t : Rat) : Nat := (t / p.tickMs).floor.toNat

/-- A timer after `t` ticks, floored at 0 (60 R325). -/
def countDown (b : Byte) (t : Nat) : Byte := BitVec.ofNat 8 (b.toNat - t)

/-- One timer step (60 R325): one beep if ST goes from nonzero to 0 (R327). -/
def State.timeStep (s : State) (ms : Rat) : State :=
  let t := wholeTicks s.params (s.acc + ms)
  let s' : State := { s with
    acc := s.acc + ms - t * s.params.tickMs
    dt := countDown s.dt t
    st := countDown s.st t }
  if s.st ≠ 0 ∧ s'.st = 0 then s'.emit .beep else s'

/-- The `time_step` port (60 R324, R334): the time is not negative, and the period is positive (00 R8). -/
def timePort (s : State) (ms : Rat) : Host.Outcome State Fault Refusal :=
  if ms < 0 then .refused .negativeTime
  else if s.params.tickMs ≤ 0 then .fault .tickPeriodNotPositive
  else .next (s.timeStep ms)

/-- The `set_key` port (60 R330). -/
def keyPort (s : State) (k : Nat) (pressed : Bool) : Host.Outcome State Fault Refusal :=
  if k < 16 then .next { s with key := s.key.setIfInBounds k pressed } else .refused (.keyNumberOutOfRange k)

/-- One agent step, in the state whose list of turns it has left. -/
def takeTurn (t : Turn) (s : State) : Host.Outcome State Fault Refusal :=
  match t with
  | .engine => engineStep s
  | .restartFinish => .next (if s.restartReady then s.finishRestart else s)
  | .load program => loadPort s program
  | .start => .next s.start
  | .stop => .next s.stop
  | .restart => .next s.restart
  | .setKey k pressed => keyPort s k pressed
  | .timeStep ms => timePort s ms
  | .snapshot => .next (s.emit (.snapshot s.disp))
  | .setDebug on => .next { s with debug := on }
  | .setCounter n => .next { s with counter := n }

/-- The next agent step (20 R90): the first of `turns`; with none left, a waiting Restart ends as soon as it may, and
otherwise the engine goes on (log entry 2). -/
def nextTurn (s : State) : Host.Outcome State Fault Refusal :=
  match s.turns with
  | t :: rest => takeTurn t { s with turns := rest }
  | [] => takeTurn (if s.restartReady then .restartFinish else .engine) s

end Sys2Proof.Machine
end

