-- ==== Sys2Proof/Machine/Step.lean ====
section
/-! DEFINITION. One step of the machine is one agent step (20 R90). -/

namespace Sys2Proof.Machine

/-- One step: the next agent step of the total order (20 R90). -/
def step (s : State) : Host.Outcome State Fault Refusal := nextTurn s

/-- The state whose next step fetches and runs the instruction with bits `w`, bit 0 the least significant of its one
16-bit word, every bit at `nbits` or above 0 (log entry 15). -/
def State.withFetchWord (s : State) (nbits w : Nat) : State := s.placeWord (BitVec.ofNat 16 (w % 2 ^ nbits))

end Sys2Proof.Machine
end

