-- ==== Sys2Proof/Safety.lean ====
section
/-! DEFINITION. The terms the claims use: when the engine may fetch, what a step leaves unchanged, what taking a fatal
condition is, the machine's invariants, and the end of a run. -/

namespace Sys2Proof.Machine

/-! ## When the engine runs an instruction -/

/-- The engine may make an iteration, and no Stop request is pending (30 R101, 60 R303). -/
def State.Ready (s : State) : Prop :=
  s.run ≠ .stopped ∧ s.fatal = none ∧ s.waiting = none ∧ s.stopReq = false

/-- The fetch raises nothing (30 R101, 10 R39). -/
def State.FetchLegal (s : State) : Prop :=
  (s.params.pcLowCheck = .fault → 0x200 ≤ s.pc.toNat) ∧ s.pc.toNat + 1 < 4096

/-- The next agent step of `s` is the engine's, and `s'` is `s` with that turn taken off the list (20 R90). -/
def State.EngineTurn (s s' : State) : Prop :=
  (s.turns = [] ∧ s.restartReady = false ∧ s' = s) ∨ (∃ rest, s.turns = .engine :: rest ∧ s' = { s with turns := rest })

/-! ## What is unchanged from `s` to `t` -/

/-- Every general register. -/
def SameRegs (s t : State) : Prop := ∀ y, t.reg y = s.reg y
/-- Every byte of memory, through the model's read of one byte. -/
def SameMem (s t : State) : Prop := ∀ a, t.mem.read a = s.mem.read a
/-- The stack pointer and every stack entry. -/
def SameStack (s t : State) : Prop := t.sp = s.sp ∧ t.stack = s.stack
/-- Both timers. -/
def SameTimers (s t : State) : Prop := t.dt = s.dt ∧ t.st = s.st
/-- Every pixel and the display mode. -/
def SameDisplay (s t : State) : Prop := t.disp = s.disp
/-- The execution state, the stop request, the wait and the fatal latch. -/
def SameControl (s t : State) : Prop :=
  t.run = s.run ∧ t.stopReq = s.stopReq ∧ t.waiting = s.waiting ∧ t.fatal = s.fatal
/-- What no instruction reaches: keys, image, timer accumulator, lifecycle bits, diagnostic state, parameters. -/
def SameOutside (s t : State) : Prop :=
  t.key = s.key ∧ t.image = s.image ∧ t.acc = s.acc ∧ t.loaded = s.loaded ∧ t.ran = s.ran ∧ t.debug = s.debug ∧
    t.counter = s.counter ∧ t.restarts = s.restarts ∧ t.params = s.params
/-- No random draw is made, no event emitted, no turn taken. -/
def SameModel (s t : State) : Prop := t.draws = s.draws ∧ t.out = s.out ∧ t.turns = s.turns

/-- Only the general registers and `pc` may differ. -/
def OnlyRegsAndPc (s t : State) : Prop :=
  t.i = s.i ∧ SameMem s t ∧ SameStack s t ∧ SameTimers s t ∧ SameDisplay s t ∧ SameControl s t ∧ SameOutside s t ∧
    SameModel s t
/-- Only `I` and `pc` may differ. -/
def OnlyIAndPc (s t : State) : Prop :=
  SameRegs s t ∧ SameMem s t ∧ SameStack s t ∧ SameTimers s t ∧ SameDisplay s t ∧ SameControl s t ∧ SameOutside s t ∧
    SameModel s t
/-- Only `pc` may differ. -/
def OnlyPc (s t : State) : Prop := SameRegs s t ∧ OnlyRegsAndPc s t
/-- Only `pc` and the output history may differ. -/
def OnlyPcAndOut (s t : State) : Prop :=
  SameRegs s t ∧ t.i = s.i ∧ SameMem s t ∧ SameStack s t ∧ SameTimers s t ∧ SameDisplay s t ∧ SameControl s t ∧
    SameOutside s t ∧ t.draws = s.draws ∧ t.turns = s.turns
/-- Only the display, `pc` and the output history may differ. -/
def OnlyDisplayPcAndOut (s t : State) : Prop :=
  SameRegs s t ∧ t.i = s.i ∧ SameMem s t ∧ SameStack s t ∧ SameTimers s t ∧ SameControl s t ∧ SameOutside s t ∧
    t.draws = s.draws ∧ t.turns = s.turns
/-- Only the call stack and `pc` may differ. -/
def OnlyStackAndPc (s t : State) : Prop :=
  SameRegs s t ∧ t.i = s.i ∧ SameMem s t ∧ SameTimers s t ∧ SameDisplay s t ∧ SameControl s t ∧ SameOutside s t ∧
    SameModel s t
/-- Only the timers and `pc` may differ. -/
def OnlyTimersAndPc (s t : State) : Prop :=
  SameRegs s t ∧ t.i = s.i ∧ SameMem s t ∧ SameStack s t ∧ SameDisplay s t ∧ SameControl s t ∧ SameOutside s t ∧
    SameModel s t
/-- Only memory, `I` and `pc` may differ. -/
def OnlyMemIAndPc (s t : State) : Prop :=
  SameRegs s t ∧ SameStack s t ∧ SameTimers s t ∧ SameDisplay s t ∧ SameControl s t ∧ SameOutside s t ∧ SameModel s t
/-- Only the general registers, `I` and `pc` may differ. -/
def OnlyRegsIAndPc (s t : State) : Prop :=
  SameMem s t ∧ SameStack s t ∧ SameTimers s t ∧ SameDisplay s t ∧ SameControl s t ∧ SameOutside s t ∧ SameModel s t

/-! ## Fatal conditions -/

/-- `t` is `s`, the state before the fetch, after a fatal condition: the record is latched and reported, the engine is
stopped, `pc` is the instruction's address, and nothing else changed (60 R301, R302). Turns are not spoken of. -/
def TakesFatal (s t : State) (kind : FatalKind) (w : Option Word) (info : Option Nat) : Prop :=
  t.fatal = some ⟨kind, s.pc, w, info⟩ ∧ t.run = .stopped ∧ t.stopReq = false ∧ t.pc = s.pc ∧
    t.out = .fatalReport ⟨kind, s.pc, w, info⟩ :: s.out ∧ SameRegs s t ∧ t.i = s.i ∧ SameMem s t ∧ SameStack s t ∧
    SameTimers s t ∧ SameDisplay s t ∧ SameOutside s t ∧ t.waiting = s.waiting ∧ t.draws = s.draws

/-- A safe state: no fatal record is latched (10 R53). -/
def State.Safe (s : State) : Prop := s.fatal = none

/-! ## Sprites -/

/-- Some set bit of the sprite of DRW Vx, Vy, n falls on pixel (r, c), with wrap at both edges (44 R200, R202). -/
def State.SpriteSets (s : State) (x y n : Nibble) (r c : Nat) : Prop :=
  ∃ k b, k < n.toNat ∧ b < 8 ∧ ((s.reg y).toNat + k) % s.mode.height = r ∧ ((s.reg x).toNat + b) % s.mode.width = c ∧
    (s.mem.read (s.i.toNat + k)).getLsbD (7 - b) = true

/-! ## Invariants -/

/-- What holds of every state a run reaches. -/
structure State.Inv (s : State) : Prop where
  /-- Memory keeps its canonical form. -/
  mem_wf : s.mem.wf = true
  /-- So does the loaded image. -/
  image_wf : s.image.wf = true
  /-- `TICK_MS` is positive (00 R8). -/
  tick_pos : 0 < s.params.tickMs
  /-- `0 <= acc < TICK_MS` between timer steps (10 R49). -/
  acc_range : 0 ≤ s.acc ∧ s.acc < s.params.tickMs
  /-- Stopping is Running with a Stop request not yet observed (10 R55). -/
  stopping_iff : s.run = .stopping ↔ s.stopReq = true
  /-- A key wait belongs to a running engine (46 R231, 60 R342). -/
  waiting_runs : s.waiting ≠ none → s.run ≠ .stopped
  /-- A fatal record belongs to a stopped engine (60 R301, R303). -/
  fatal_stopped : s.fatal ≠ none → s.run = .stopped
  /-- A running engine has a program and has been started (60 R316). -/
  running_loaded : s.run ≠ .stopped → s.ran = true
  /-- What has run was loaded (10 R58). -/
  ran_loaded : s.ran = true → s.loaded = true
  /-- A Restart that waits has a program to run (60 R319). -/
  restarts_loaded : s.restarts ≠ 0 → s.loaded = true

/-- Once a program is loaded, the glyph table is in memory and in the image (20 R76, 95 W1). -/
def State.GlyphsIntact (s : State) : Prop :=
  s.loaded = true → ∀ d : Fin 80, s.mem.read d.val = s.params.glyphs[d] ∧ s.image.read d.val = s.params.glyphs[d]

/-! ## The end of a run -/

/-- The engine is at a self-jump: the bytes at `pc` are 1aaa with aaa = `pc` (60 R343). -/
def State.AtSelfJump (s : State) : Bool :=
  decide (s.fatal = none) && decide (s.fetchWord = wordA 0x1 (s.pc.setWidth 12)) && decide (s.pc.toNat < 4096)

/-- The end of a run, for claims: Stopped, or the engine at a self-jump (60 R343). -/
def State.RunEnded (s : State) : Bool := decide (s.run = .stopped) || s.AtSelfJump

end Sys2Proof.Machine
end

