-- ==== Sys2Proof/Certificates/Slice0/Obligations.lean ====
section
/-! DEFINITION. The statements for the provers. In a statement about an instruction, `s` is the state before the fetch and
`exec i s.advancePc` runs the instruction with `pc` already at `a + 2` (30 R101), so `s.pc` is the instruction's
address `a`; every state is the advance of one, so nothing is shut out. -/

open Sys2Proof Sys2Proof.Machine

/-! ## Words used by several statements -/

/-- The effect of a flag-writing ALU instruction with destination `x` and operands `V[a]`, `V[b]`, over natural numbers, by
ALU_VF_ORDER: VF first, then `V[x]`, so that VF keeps the flag unless it is the destination; every other register is
as before (42 R161). -/
def AluEffect (s t : State) (x a b : Nibble) (flag : Nat → Nat → Prop) (result : Nat → Nat → Nat) : Prop :=
  ∃ f : Nat, (f = 1 ∧ flag (s.reg a).toNat (s.reg b).toNat ∨ f = 0 ∧ ¬ flag (s.reg a).toNat (s.reg b).toNat) ∧
    (s.params.aluVfOrder = .sampled → (t.reg x).toNat = result (s.reg a).toNat (s.reg b).toNat % 256) ∧
    (s.params.aluVfOrder = .reread →
      (t.reg x).toNat = result (if a = 0xF then f else (s.reg a).toNat) (if b = 0xF then f else (s.reg b).toNat) % 256) ∧
    (x ≠ 0xF → (t.reg 0xF).toNat = f) ∧ (∀ y, y ≠ x → y ≠ 0xF → t.reg y = s.reg y)

/-- The registers an instruction may write when it executes, by the table of 10 R33 (Fx0A writes Vx at its poll). -/
def WritesReg (i : Instr) (y : Nibble) : Prop :=
  match i with
  | .ldImm x _ | .addImm x _ | .ldReg x _ | .orReg x _ | .andReg x _ | .xorReg x _ | .rnd x _ | .ldVxDt x => y = x
  | .addReg x _ | .sub x _ | .shr x _ | .subn x _ | .shl x _ => y = x ∨ y = 0xF
  | .drw _ _ _ => y = 0xF
  | .ldVxMem x => y ≤ x
  | .cls | .ret | .jp _ | .call _ | .seImm _ _ | .sneImm _ _ | .seReg _ _ | .sneReg _ _ | .ldI _ | .jpV0 _ | .skp _
  | .sknp _ | .ldVxK _ | .ldDtVx _ | .ldStVx _ | .addIVx _ | .ldFVx _ | .ldBVx _ | .ldMemVx _ | .low | .high | .scd _
  | .scr | .scl => False

/-- Where an instruction that takes no fatal condition leaves `pc`, by the table of 10 R36; `s` is the state before the
fetch and `t` the one after. -/
def PcAfter (i : Instr) (s t : State) : Prop :=
  match i with
  | .jp nnn | .call nnn => t.pc.toNat = nnn.toNat
  | .ret => ∃ j : Fin 16, s.sp.val = j.val + 1 ∧ t.pc = s.stack[j]
  | .jpV0 nnn =>
    (s.params.bnnnMode = .jumpV0 → t.pc.toNat = nnn.toNat + (s.reg 0).toNat) ∧
    (s.params.bnnnMode = .unknown → t.pc = s.pc + 2)
  | .seImm x kk => t.pc = if s.reg x = kk then s.pc + 4 else s.pc + 2
  | .sneImm x kk => t.pc = if s.reg x = kk then s.pc + 2 else s.pc + 4
  | .seReg x y => t.pc = if s.reg x = s.reg y then s.pc + 4 else s.pc + 2
  | .sneReg x y => t.pc = if s.reg x = s.reg y then s.pc + 2 else s.pc + 4
  | .skp x => ∃ k : Fin 16, (s.reg x).toNat = k.val ∧ t.pc = if s.key[k] = true then s.pc + 4 else s.pc + 2
  | .sknp x => ∃ k : Fin 16, (s.reg x).toNat = k.val ∧ t.pc = if s.key[k] = true then s.pc + 2 else s.pc + 4
  | .cls | .ldImm _ _ | .addImm _ _ | .ldReg _ _ | .orReg _ _ | .andReg _ _ | .xorReg _ _ | .addReg _ _ | .sub _ _
  | .shr _ _ | .subn _ _ | .shl _ _ | .ldI _ | .rnd _ _ | .drw _ _ _ | .ldVxDt _ | .ldVxK _ | .ldDtVx _ | .ldStVx _
  | .addIVx _ | .ldFVx _ | .ldBVx _ | .ldMemVx _ | .ldVxMem _ | .low | .high | .scd _ | .scr | .scl => t.pc = s.pc + 2

/-! ## Encoding and decoding -/

/-- 30 R108, R109, R114: an encoded instruction of the machine decodes to itself, every operand at every value, and the
decoder takes exactly its two bytes. -/
def Obligations.DecodeInvertsEncode : Prop :=
  ∀ (p : Params) (i : Instr) (rest : List Byte), i.wf p = true → decode p (encodeBytes i ++ rest) = .ok (i, rest)

/-- The other direction: what decodes is an instruction of the machine, and its word is the decoded word, but for the low
nibble of 5xyn and 9xyn that LOW_NIBBLE_59 = ignore drops (30 R109). -/
def Obligations.EncodeInvertsDecode : Prop :=
  ∀ (p : Params) (w : Word) (i : Instr), decodeWord p w = .ok i →
    i.wf p = true ∧
    (encode i = w ∨
      (p.lowNibble59 = .ignore ∧ (∃ x y, i = .seReg x y ∨ i = .sneReg x y) ∧ encode i = w &&& 0xFFF0))

/-- 30 R109: decoding depends on the word and two parameters only; no two rows match one word; a word that matches no row is
unknown, and one that matches a row is an instruction; the two parameters act as stated. -/
def Obligations.DecodingFollowsTheOpcodeMap : Prop :=
  (∀ (p q : Params) (w : Word), p.bnnnMode = q.bnnnMode → p.lowNibble59 = q.lowNibble59 → decodeWord p w = decodeWord q w) ∧
  (∀ (p : Params) (w : Word) (r r' : OpcodeRow), r ∈ opcodeRows p → r' ∈ opcodeRows p →
    r.matchesWord w = true → r'.matchesWord w = true → r = r') ∧
  (∀ (p : Params) (w : Word), (∀ r ∈ opcodeRows p, r.matchesWord w = false) → decodeWord p w = .error (.unknown w)) ∧
  (∀ (p : Params) (w : Word), (∃ r ∈ opcodeRows p, r.matchesWord w = true) → ∃ i, decodeWord p w = .ok i) ∧
  (∀ (p : Params) (x y n : Nibble), p.lowNibble59 = .ignore ∨ n = 0 →
    decodeWord p (wordXYN 0x5 x y n) = .ok (.seReg x y) ∧ decodeWord p (wordXYN 0x9 x y n) = .ok (.sneReg x y)) ∧
  (∀ (p : Params) (x y n : Nibble), p.lowNibble59 = .strict → n ≠ 0 →
    decodeWord p (wordXYN 0x5 x y n) = .error (.unknown (wordXYN 0x5 x y n)) ∧
    decodeWord p (wordXYN 0x9 x y n) = .error (.unknown (wordXYN 0x9 x y n))) ∧
  (∀ (p : Params) (a : Addr), p.bnnnMode = .unknown → decodeWord p (wordA 0xB a) = .error (.unknown (wordA 0xB a)))

/-- Words written out from 30 R105 and R108, at least one for each family nibble of R107, decode to the instructions they stand for. -/
def Obligations.SampleWordsDecode : Prop :=
  decodeWord Params.default 0b0000000011100000 = .ok .cls ∧
  decodeWord Params.default 0b0000000011000100 = .ok (.scd 4) ∧
  decodeWord Params.default 0b0001101010111100 = .ok (.jp 0xABC) ∧
  decodeWord Params.default 0b0010001000010000 = .ok (.call 0x210) ∧
  decodeWord Params.default 0b0011001101000010 = .ok (.seImm 3 0x42) ∧
  decodeWord Params.default 0b0100001100000001 = .ok (.sneImm 3 0x01) ∧
  decodeWord Params.default 0b0101000100100000 = .ok (.seReg 1 2) ∧
  decodeWord Params.default 0b0110101011111110 = .ok (.ldImm 0xA 0xFE) ∧
  decodeWord Params.default 0b0111101000000010 = .ok (.addImm 0xA 2) ∧
  decodeWord Params.default 0b1000101010110101 = .ok (.sub 0xA 0xB) ∧
  decodeWord Params.default 0b1001000100100000 = .ok (.sneReg 1 2) ∧
  decodeWord Params.default 0b1010001100000000 = .ok (.ldI 0x300) ∧
  decodeWord Params.default 0b1011001100000001 = .ok (.jpV0 0x301) ∧
  decodeWord Params.default 0b1100001100001111 = .ok (.rnd 3 0x0F) ∧
  decodeWord Params.default 0b1101000000010101 = .ok (.drw 0 1 5) ∧
  decodeWord Params.default 0b1110010110100001 = .ok (.sknp 5) ∧
  decodeWord Params.default 0b1111110000110011 = .ok (.ldBVx 0xC)

/-! ## The engine's step -/

/-- 30 R101: when the engine may fetch and the bytes at `pc` decode to an instruction, the step is that instruction's
execution, in the state where `pc` has advanced by 2. -/
def Obligations.StepRunsDecodedInstruction : Prop :=
  ∀ (s s' : State) (i : Instr), s.EngineTurn s' → s.Ready → s.FetchLegal →
    decode s.params [s.mem.read s.pc.toNat, s.mem.read (s.pc.toNat + 1)] = .ok (i, []) →
    step s = exec i s'.advancePc

/-- 30 R110: an unknown opcode emits its diagnostic with the raw word and its address, `pc` is at a + 2, and nothing else
changes. -/
def Obligations.UnknownOpcodeOnlyDiagnoses : Prop :=
  ∀ (s s' : State) (w : Word), s.EngineTurn s' → s.Ready → s.FetchLegal →
    w = wordOfBytes (s.mem.read s.pc.toNat) (s.mem.read (s.pc.toNat + 1)) →
    decodeWord s.params w = .error (.unknown w) →
    ∃ t, step s = .next t ∧ t.pc = s.pc + 2 ∧ t.out = .diag .unknown w s.pc :: s.out ∧ OnlyPcAndOut s' t

/-- 10 R39, 30 R101, R102: a fetch below 0x200 raises IllegalPc where the check is on; any other fetch that leaves memory
raises AddressOutOfBounds with the lowest out-of-range byte. -/
def Obligations.FetchFaultsAreFatal : Prop :=
  ∀ s s' : State, s.EngineTurn s' → s.Ready →
    (s.params.pcLowCheck = .fault → s.pc.toNat < 0x200 →
      ∃ t, step s = .next t ∧ TakesFatal s t .illegalPc none (some s.pc.toNat) ∧ t.turns = s'.turns) ∧
    (4096 ≤ s.pc.toNat →
      ∃ t, step s = .next t ∧ TakesFatal s t .addressOutOfBounds none (some s.pc.toNat) ∧ t.turns = s'.turns) ∧
    (s.pc.toNat = 4095 →
      ∃ t, step s = .next t ∧ TakesFatal s t .addressOutOfBounds none (some 4096) ∧ t.turns = s'.turns)

/-- 30 R101, 60 R318, R367: a pending Stop request is honoured before any fetch, and the iteration does nothing else. -/
def Obligations.StopRequestWinsOverFetch : Prop :=
  ∀ s s' : State, s.EngineTurn s' → s.run ≠ .stopped → s.fatal = none → s.waiting = none → s.stopReq = true →
    ∃ t, step s = .next t ∧ t.run = .stopped ∧ t.stopReq = false ∧ t.pc = s.pc ∧ SameRegs s t ∧ t.i = s.i ∧ SameMem s t ∧
      SameStack s t ∧ SameTimers s t ∧ SameDisplay s t ∧ t.waiting = none ∧ t.fatal = none ∧ SameOutside s t ∧
      t.draws = s.draws ∧ t.out = s.out ∧ t.turns = s'.turns

/-- 60 R303, R342: stopped, or with a fatal record latched, the engine does nothing in its turn. That the step then leaves
the state as it is, is the model's choice (log entry 3). -/
def Obligations.StoppedEngineDoesNothing : Prop :=
  ∀ s s' : State, s.EngineTurn s' → s.run = .stopped ∨ s.fatal ≠ none → step s = .next s'

/-- 46 R231: a poll of a key wait. A Stop request cancels it, first; otherwise the lowest pressed key ends it; otherwise
nothing changes. -/
def Obligations.PollEndsKeyWait : Prop :=
  ∀ (s s' : State) (w : Wait), s.EngineTurn s' → s.run ≠ .stopped → s.fatal = none → s.waiting = some w →
    (s.stopReq = true →
      ∃ t, step s = .next t ∧ t.waiting = none ∧ t.pc = w.addr ∧ t.run = .stopped ∧ t.stopReq = false ∧ SameRegs s t ∧
        t.i = s.i ∧ SameMem s t ∧ SameStack s t ∧ SameTimers s t ∧ SameDisplay s t ∧ t.fatal = none ∧ SameOutside s t ∧
        t.draws = s.draws ∧ t.out = s.out ∧ t.turns = s'.turns) ∧
    (∀ k : Fin 16, s.stopReq = false → s.key[k] = true → (∀ j : Fin 16, j < k → s.key[j] = false) →
      ∃ t, step s = .next t ∧ t.waiting = none ∧ (t.reg w.x).toNat = k.val ∧ (∀ y, y ≠ w.x → t.reg y = s.reg y) ∧
        t.pc = s.pc ∧ t.i = s.i ∧ SameMem s t ∧ SameStack s t ∧ SameTimers s t ∧ SameDisplay s t ∧ t.run = s.run ∧
        t.stopReq = false ∧ t.fatal = none ∧ SameOutside s t ∧ t.draws = s.draws ∧ t.out = s.out ∧ t.turns = s'.turns) ∧
    (s.stopReq = false → (∀ j : Fin 16, s.key[j] = false) → step s = .next s')

/-- 60 R343: at a self-jump the engine keeps executing it: its step changes nothing but the list of turns. -/
def Obligations.SelfJumpChangesNothing : Prop :=
  ∀ s s' : State, s.EngineTurn s' → s.Ready → s.FetchLegal → s.AtSelfJump = true → step s = .next s'

/-! ## Control -/

/-- 40 R130 CLS. -/
def Obligations.ClsClearsEveryPixel : Prop :=
  ∀ s : State, decodeWord s.params 0x00E0 = .ok .cls ∧
    ∃ t, exec .cls s.advancePc = .next t ∧ (∀ r c, t.disp.pixel r c = false) ∧ t.mode = s.mode ∧
    t.pc = s.pc + 2 ∧ t.out = s.out ∧ OnlyDisplayPcAndOut s t

/-- 40 R131 RET: with an entry in use it pops, without clearing the slot; with none it raises StackUnderflow. -/
def Obligations.RetPopsOrUnderflows : Prop :=
  ∀ s : State, decodeWord s.params 0x00EE = .ok .ret ∧
    (∀ j : Fin 16, s.sp.val = j.val + 1 →
      ∃ t, exec .ret s.advancePc = .next t ∧ t.pc = s.stack[j] ∧ t.sp.val = j.val ∧ t.stack = s.stack ∧
        OnlyStackAndPc s t) ∧
    (s.sp = 0 →
      ∃ t, exec .ret s.advancePc = .next t ∧ TakesFatal s t .stackUnderflow (some 0x00EE) none ∧ t.turns = s.turns)

/-- 40 R132 JP and 43 R191 JP V0 (both values of BNNN_MODE). -/
def Obligations.JumpsSetPc : Prop :=
  ∀ (s : State) (nnn : Addr),
    decodeWord s.params (wordA 0x1 nnn) = .ok (.jp nnn) ∧
    (s.params.bnnnMode = .jumpV0 → decodeWord s.params (wordA 0xB nnn) = .ok (.jpV0 nnn)) ∧
    (∃ t, exec (.jp nnn) s.advancePc = .next t ∧ t.pc.toNat = nnn.toNat ∧ OnlyPc s t) ∧
    (s.params.bnnnMode = .jumpV0 →
      ∃ t, exec (.jpV0 nnn) s.advancePc = .next t ∧ t.pc.toNat = nnn.toNat + (s.reg 0).toNat ∧ OnlyPc s t) ∧
    (s.params.bnnnMode = .unknown → decodeWord s.params (wordA 0xB nnn) = .error (.unknown (wordA 0xB nnn)) ∧
      ∃ t, exec (.jpV0 nnn) s.advancePc = .next t ∧ t.pc = s.pc + 2 ∧
        t.out = .diag .unknown (wordA 0xB nnn) s.pc :: s.out ∧ OnlyPcAndOut s t)

/-- 40 R133 CALL: with room it pushes the address of the next instruction and jumps; with 16 entries in use it raises
StackOverflow. -/
def Obligations.CallPushesOrOverflows : Prop :=
  ∀ (s : State) (nnn : Addr), decodeWord s.params (wordA 0x2 nnn) = .ok (.call nnn) ∧
    (∀ j : Fin 16, s.sp.val = j.val →
      ∃ t, exec (.call nnn) s.advancePc = .next t ∧ t.pc.toNat = nnn.toNat ∧ t.sp.val = j.val + 1 ∧
        t.stack[j] = s.pc + 2 ∧ (∀ k : Fin 16, k ≠ j → t.stack[k] = s.stack[k]) ∧ OnlyStackAndPc s t) ∧
    (s.sp.val = 16 →
      ∃ t, exec (.call nnn) s.advancePc = .next t ∧ TakesFatal s t .stackOverflow (some (wordA 0x2 nnn)) none ∧
        t.turns = s.turns)

/-- 95 W2, 40 R131, R133: a CALL with room, then a RET from the state it leaves, resumes after the CALL with the stack
pointer as before, at every nesting depth. -/
def Obligations.CallThenReturnResumes : Prop :=
  ∀ (s : State) (nnn : Addr), s.sp.val < 16 →
    ∃ t u, exec (.call nnn) s.advancePc = .next t ∧ exec .ret t.advancePc = .next u ∧ u.pc = s.pc + 2 ∧ u.sp = s.sp ∧
      (∀ k : Fin 16, k.val ≠ s.sp.val → u.stack[k] = s.stack[k]) ∧ OnlyStackAndPc s u

/-- 40 R134 to R137: SE and SNE, with an immediate or a register, skip exactly two bytes when their condition holds, and none
otherwise. -/
def Obligations.ConditionalSkips : Prop :=
  ∀ (s : State) (x y n : Nibble) (kk : Byte),
    (decodeWord s.params (wordXK 0x3 x kk) = .ok (.seImm x kk) ∧ decodeWord s.params (wordXK 0x4 x kk) = .ok (.sneImm x kk)) ∧
    (s.params.lowNibble59 = .ignore ∨ n = 0 →
      decodeWord s.params (wordXYN 0x5 x y n) = .ok (.seReg x y) ∧ decodeWord s.params (wordXYN 0x9 x y n) = .ok (.sneReg x y)) ∧
    (s.params.lowNibble59 = .strict → n ≠ 0 →
      decodeWord s.params (wordXYN 0x5 x y n) = .error (.unknown (wordXYN 0x5 x y n)) ∧
      decodeWord s.params (wordXYN 0x9 x y n) = .error (.unknown (wordXYN 0x9 x y n))) ∧
    (∃ t, exec (.seImm x kk) s.advancePc = .next t ∧
      (s.reg x = kk → t.pc = s.pc + 4) ∧ (s.reg x ≠ kk → t.pc = s.pc + 2) ∧ OnlyPc s t) ∧
    (∃ t, exec (.sneImm x kk) s.advancePc = .next t ∧
      (s.reg x ≠ kk → t.pc = s.pc + 4) ∧ (s.reg x = kk → t.pc = s.pc + 2) ∧ OnlyPc s t) ∧
    (∃ t, exec (.seReg x y) s.advancePc = .next t ∧
      (s.reg x = s.reg y → t.pc = s.pc + 4) ∧ (s.reg x ≠ s.reg y → t.pc = s.pc + 2) ∧ OnlyPc s t) ∧
    (∃ t, exec (.sneReg x y) s.advancePc = .next t ∧
      (s.reg x ≠ s.reg y → t.pc = s.pc + 4) ∧ (s.reg x = s.reg y → t.pc = s.pc + 2) ∧ OnlyPc s t)

/-! ## Register-immediate and ALU -/

/-- 41 R150, R151: LD and ADD with an immediate; the sum wraps modulo 256 and VF is not written unless it is the
destination. -/
def Obligations.ImmediateLoadAndAdd : Prop :=
  ∀ (s : State) (x : Nibble) (kk : Byte),
    (decodeWord s.params (wordXK 0x6 x kk) = .ok (.ldImm x kk) ∧ decodeWord s.params (wordXK 0x7 x kk) = .ok (.addImm x kk)) ∧
    (∃ t, exec (.ldImm x kk) s.advancePc = .next t ∧ t.reg x = kk ∧ (∀ y, y ≠ x → t.reg y = s.reg y) ∧
      t.pc = s.pc + 2 ∧ OnlyRegsAndPc s t) ∧
    (∃ t, exec (.addImm x kk) s.advancePc = .next t ∧ (t.reg x).toNat = ((s.reg x).toNat + kk.toNat) % 256 ∧
      (∀ y, y ≠ x → t.reg y = s.reg y) ∧ t.pc = s.pc + 2 ∧ OnlyRegsAndPc s t)

/-- 42 R164 to R167: copy, OR, AND and XOR, bit by bit; VF is unchanged unless it is the destination. -/
def Obligations.CopyAndLogic : Prop :=
  ∀ (s : State) (x y : Nibble),
    (decodeWord s.params (wordXYN 0x8 x y 0x0) = .ok (.ldReg x y) ∧ decodeWord s.params (wordXYN 0x8 x y 0x1) = .ok (.orReg x y) ∧
      decodeWord s.params (wordXYN 0x8 x y 0x2) = .ok (.andReg x y) ∧
      decodeWord s.params (wordXYN 0x8 x y 0x3) = .ok (.xorReg x y)) ∧
    (∃ t, exec (.ldReg x y) s.advancePc = .next t ∧ t.reg x = s.reg y ∧ (∀ z, z ≠ x → t.reg z = s.reg z) ∧
      t.pc = s.pc + 2 ∧ OnlyRegsAndPc s t) ∧
    (∃ t, exec (.orReg x y) s.advancePc = .next t ∧
      (∀ b, (t.reg x).getLsbD b = ((s.reg x).getLsbD b || (s.reg y).getLsbD b)) ∧ (∀ z, z ≠ x → t.reg z = s.reg z) ∧
      t.pc = s.pc + 2 ∧ OnlyRegsAndPc s t) ∧
    (∃ t, exec (.andReg x y) s.advancePc = .next t ∧
      (∀ b, (t.reg x).getLsbD b = ((s.reg x).getLsbD b && (s.reg y).getLsbD b)) ∧ (∀ z, z ≠ x → t.reg z = s.reg z) ∧
      t.pc = s.pc + 2 ∧ OnlyRegsAndPc s t) ∧
    (∃ t, exec (.xorReg x y) s.advancePc = .next t ∧
      (∀ b, (t.reg x).getLsbD b = ((s.reg x).getLsbD b != (s.reg y).getLsbD b)) ∧ (∀ z, z ≠ x → t.reg z = s.reg z) ∧
      t.pc = s.pc + 2 ∧ OnlyRegsAndPc s t)

/-- 42 R168: ADD, flag and sum in the order of R161, under both values of ALU_VF_ORDER. -/
def Obligations.AddWithCarry : Prop :=
  ∀ (s : State) (x y : Nibble), decodeWord s.params (wordXYN 0x8 x y 0x4) = .ok (.addReg x y) ∧
    ∃ t, exec (.addReg x y) s.advancePc = .next t ∧
    AluEffect s t x x y (fun vx vy => 255 < vx + vy) (fun vx vy => vx + vy) ∧ t.pc = s.pc + 2 ∧ OnlyRegsAndPc s t

/-- 42 R169: SUB; the flag is the strict comparison. -/
def Obligations.SubWithNoBorrow : Prop :=
  ∀ (s : State) (x y : Nibble), decodeWord s.params (wordXYN 0x8 x y 0x5) = .ok (.sub x y) ∧
    ∃ t, exec (.sub x y) s.advancePc = .next t ∧
    AluEffect s t x x y (fun vx vy => vy < vx) (fun vx vy => vx + 256 - vy) ∧ t.pc = s.pc + 2 ∧ OnlyRegsAndPc s t

/-- 42 R171: SUBN is SUB under as_source, so that no program can tell them apart, and the reversed subtraction under
reversed. -/
def Obligations.SubnByMode : Prop :=
  ∀ (s : State) (x y : Nibble), decodeWord s.params (wordXYN 0x8 x y 0x7) = .ok (.subn x y) ∧
    (s.params.subnMode = .asSource → exec (.subn x y) s = exec (.sub x y) s) ∧
    (∃ t, exec (.subn x y) s.advancePc = .next t ∧ t.pc = s.pc + 2 ∧ OnlyRegsAndPc s t ∧
      (s.params.subnMode = .asSource →
        AluEffect s t x x y (fun vx vy => vy < vx) (fun vx vy => vx + 256 - vy)) ∧
      (s.params.subnMode = .reversed →
        AluEffect s t x x y (fun vx vy => vx < vy) (fun vx vy => vy + 256 - vx)))

/-- 42 R162, R170, R172: SHR and SHL, with the shift source by SHIFT_SOURCE. -/
def Obligations.ShiftsByOne : Prop :=
  ∀ (s : State) (x y z : Nibble),
    (s.params.shiftSource = .vx ∧ z = x) ∨ (s.params.shiftSource = .vy ∧ z = y) →
    (decodeWord s.params (wordXYN 0x8 x y 0x6) = .ok (.shr x y) ∧ decodeWord s.params (wordXYN 0x8 x y 0xE) = .ok (.shl x y)) ∧
    (∃ t, exec (.shr x y) s.advancePc = .next t ∧ AluEffect s t x z z (fun b _ => b % 2 = 1) (fun b _ => b / 2) ∧
      t.pc = s.pc + 2 ∧ OnlyRegsAndPc s t) ∧
    (∃ t, exec (.shl x y) s.advancePc = .next t ∧ AluEffect s t x z z (fun b _ => 128 ≤ b) (fun b _ => 2 * b) ∧
      t.pc = s.pc + 2 ∧ OnlyRegsAndPc s t)

/-! ## Address register, random, timers -/

/-- 43 R190, 46 R234, R235: what the three instructions that set I leave in it. -/
def Obligations.AddressRegisterWrites : Prop :=
  ∀ (s : State) (nnn : Addr) (x : Nibble),
    (decodeWord s.params (wordA 0xA nnn) = .ok (.ldI nnn) ∧ decodeWord s.params (wordXK 0xF x 0x1E) = .ok (.addIVx x) ∧
      decodeWord s.params (wordXK 0xF x 0x29) = .ok (.ldFVx x)) ∧
    (∃ t, exec (.ldI nnn) s.advancePc = .next t ∧ t.i.toNat = nnn.toNat ∧ t.pc = s.pc + 2 ∧ OnlyIAndPc s t) ∧
    (∃ t, exec (.addIVx x) s.advancePc = .next t ∧ t.i.toNat = (s.i.toNat + (s.reg x).toNat) % 65536 ∧
      t.pc = s.pc + 2 ∧ OnlyIAndPc s t) ∧
    (∃ t, exec (.ldFVx x) s.advancePc = .next t ∧ t.i.toNat = 5 * ((s.reg x).toNat % 16) ∧ t.pc = s.pc + 2 ∧
      OnlyIAndPc s t)

/-- 43 R192, R193: RND stores the masked draw, whatever the draw is, and counts it as made; only bits of the mask can
be set. The draw is the free value `Config.rand8` (log entry 5). -/
def Obligations.RandomIsMasked : Prop :=
  ∀ (s : State) (x : Nibble) (kk : Byte),
    ∃ t, exec (.rnd x kk) s.advancePc = .next t ∧
      (∀ b, (t.reg x).getLsbD b = ((Config.rand8 s.draws).getLsbD b && kk.getLsbD b)) ∧
      (kk = 0 → t.reg x = 0) ∧ t.draws = s.draws + 1 ∧ (∀ y, y ≠ x → t.reg y = s.reg y) ∧ t.pc = s.pc + 2 ∧ t.i = s.i ∧
      SameMem s t ∧ SameStack s t ∧ SameTimers s t ∧ SameDisplay s t ∧ SameControl s t ∧ SameOutside s t ∧
      t.out = s.out ∧ t.turns = s.turns

/-- 46 R230, R232, R233: the three timer transfers; none emits an event. -/
def Obligations.TimerTransfers : Prop :=
  ∀ (s : State) (x : Nibble),
    (decodeWord s.params (wordXK 0xF x 0x07) = .ok (.ldVxDt x) ∧ decodeWord s.params (wordXK 0xF x 0x15) = .ok (.ldDtVx x) ∧
      decodeWord s.params (wordXK 0xF x 0x18) = .ok (.ldStVx x)) ∧
    (∃ t, exec (.ldVxDt x) s.advancePc = .next t ∧ t.reg x = s.dt ∧ (∀ y, y ≠ x → t.reg y = s.reg y) ∧
      t.pc = s.pc + 2 ∧ OnlyRegsAndPc s t) ∧
    (∃ t, exec (.ldDtVx x) s.advancePc = .next t ∧ t.dt = s.reg x ∧ t.st = s.st ∧ t.pc = s.pc + 2 ∧ OnlyTimersAndPc s t) ∧
    (∃ t, exec (.ldStVx x) s.advancePc = .next t ∧ t.st = s.reg x ∧ t.dt = s.dt ∧ t.pc = s.pc + 2 ∧ OnlyTimersAndPc s t)

/-! ## Keys -/

/-- 45 R220 to R222: the key tests. With a key number up to 15 they skip by the key's latch bit; above, they raise
KeyIndexOutOfRange. -/
def Obligations.KeyTests : Prop :=
  ∀ (s : State) (x : Nibble),
    (decodeWord s.params (wordXK 0xE x 0x9E) = .ok (.skp x) ∧ decodeWord s.params (wordXK 0xE x 0xA1) = .ok (.sknp x)) ∧
    (∀ k : Fin 16, (s.reg x).toNat = k.val →
      (∃ t, exec (.skp x) s.advancePc = .next t ∧
        (s.key[k] = true → t.pc = s.pc + 4) ∧ (s.key[k] = false → t.pc = s.pc + 2) ∧ OnlyPc s t) ∧
      (∃ t, exec (.sknp x) s.advancePc = .next t ∧
        (s.key[k] = false → t.pc = s.pc + 4) ∧ (s.key[k] = true → t.pc = s.pc + 2) ∧ OnlyPc s t)) ∧
    (15 < (s.reg x).toNat →
      (∃ t, exec (.skp x) s.advancePc = .next t ∧
        TakesFatal s t .keyIndexOutOfRange (some (wordXK 0xE x 0x9E)) (some (s.reg x).toNat) ∧ t.turns = s.turns) ∧
      (∃ t, exec (.sknp x) s.advancePc = .next t ∧
        TakesFatal s t .keyIndexOutOfRange (some (wordXK 0xE x 0xA1)) (some (s.reg x).toNat) ∧ t.turns = s.turns))

/-- 46 R231: executing Fx0A only sets the wait state, with its register and its own address. -/
def Obligations.KeyWaitBegins : Prop :=
  ∀ (s : State) (x : Nibble),
    ∃ t, exec (.ldVxK x) s.advancePc = .next t ∧ t.waiting = some ⟨x, s.pc⟩ ∧ t.pc = s.pc + 2 ∧ SameRegs s t ∧ t.i = s.i ∧
      SameMem s t ∧ SameStack s t ∧ SameTimers s t ∧ SameDisplay s t ∧ t.run = s.run ∧ t.stopReq = s.stopReq ∧
      t.fatal = s.fatal ∧ SameOutside s t ∧ SameModel s t

/-! ## Memory transfers -/

/-- 46 R236: BCD. Within bounds the three digits land at I, I+1, I+2, but for bytes of the glyph table, which are dropped
under GLYPH_WRITE = ignore; every other byte is as before. Outside memory, and in the protected glyph table, it raises
the fatal condition of the lowest offending address, and writes nothing. -/
def Obligations.BcdStoresDigits : Prop :=
  ∀ (s : State) (x : Nibble), s.mem.wf = true →
    decodeWord s.params (wordXK 0xF x 0x33) = .ok (.ldBVx x) ∧
    (s.i.toNat + 2 < 4096 → (s.params.glyphWrite = .fault → 80 ≤ s.i.toNat) →
      ∃ t, exec (.ldBVx x) s.advancePc = .next t ∧
        (80 ≤ s.i.toNat → (t.mem.read s.i.toNat).toNat = (s.reg x).toNat / 100) ∧
        (80 ≤ s.i.toNat + 1 → (t.mem.read (s.i.toNat + 1)).toNat = (s.reg x).toNat / 10 % 10) ∧
        (80 ≤ s.i.toNat + 2 → (t.mem.read (s.i.toNat + 2)).toNat = (s.reg x).toNat % 10) ∧
        (∀ b, (b < s.i.toNat ∨ s.i.toNat + 2 < b ∨ b < 80) → t.mem.read b = s.mem.read b) ∧
        t.i = s.i ∧ t.pc = s.pc + 2 ∧ OnlyMemIAndPc s t) ∧
    (4096 ≤ s.i.toNat + 2 →
      ∃ t, exec (.ldBVx x) s.advancePc = .next t ∧
        TakesFatal s t .addressOutOfBounds (some (wordXK 0xF x 0x33)) (some (max s.i.toNat 4096)) ∧ t.turns = s.turns) ∧
    (s.params.glyphWrite = .fault → s.i.toNat < 80 →
      ∃ t, exec (.ldBVx x) s.advancePc = .next t ∧
        TakesFatal s t .glyphWrite (some (wordXK 0xF x 0x33)) (some s.i.toNat) ∧ t.turns = s.turns)

/-- 46 R237: Fx55 stores V0..Vx at I..I+x, but for bytes of the glyph table under GLYPH_WRITE = ignore; I by
LDST_I_MODE; the fatal conditions as for Fx33. -/
def Obligations.RegistersAreStored : Prop :=
  ∀ (s : State) (x : Nibble), s.mem.wf = true →
    decodeWord s.params (wordXK 0xF x 0x55) = .ok (.ldMemVx x) ∧
    (s.i.toNat + x.toNat < 4096 → (s.params.glyphWrite = .fault → 80 ≤ s.i.toNat) →
      ∃ t, exec (.ldMemVx x) s.advancePc = .next t ∧
        (∀ k : Nibble, k ≤ x → 80 ≤ s.i.toNat + k.toNat → t.mem.read (s.i.toNat + k.toNat) = s.reg k) ∧
        (∀ b, (b < s.i.toNat ∨ s.i.toNat + x.toNat < b ∨ b < 80) → t.mem.read b = s.mem.read b) ∧
        (s.params.ldstIMode = .unchanged → t.i = s.i) ∧
        (s.params.ldstIMode = .increment → t.i.toNat = (s.i.toNat + x.toNat + 1) % 65536) ∧
        t.pc = s.pc + 2 ∧ OnlyMemIAndPc s t) ∧
    (4096 ≤ s.i.toNat + x.toNat →
      ∃ t, exec (.ldMemVx x) s.advancePc = .next t ∧
        TakesFatal s t .addressOutOfBounds (some (wordXK 0xF x 0x55)) (some (max s.i.toNat 4096)) ∧ t.turns = s.turns) ∧
    (s.params.glyphWrite = .fault → s.i.toNat < 80 →
      ∃ t, exec (.ldMemVx x) s.advancePc = .next t ∧
        TakesFatal s t .glyphWrite (some (wordXK 0xF x 0x55)) (some s.i.toNat) ∧ t.turns = s.turns)

/-- 46 R238: Fx65 loads V0..Vx from I..I+x; I by LDST_I_MODE; a range that leaves memory raises AddressOutOfBounds. -/
def Obligations.RegistersAreLoaded : Prop :=
  ∀ (s : State) (x : Nibble),
    decodeWord s.params (wordXK 0xF x 0x65) = .ok (.ldVxMem x) ∧
    (s.i.toNat + x.toNat < 4096 →
      ∃ t, exec (.ldVxMem x) s.advancePc = .next t ∧
        (∀ k : Nibble, k ≤ x → t.reg k = s.mem.read (s.i.toNat + k.toNat)) ∧
        (∀ k : Nibble, ¬ k ≤ x → t.reg k = s.reg k) ∧
        (s.params.ldstIMode = .unchanged → t.i = s.i) ∧
        (s.params.ldstIMode = .increment → t.i.toNat = (s.i.toNat + x.toNat + 1) % 65536) ∧
        t.pc = s.pc + 2 ∧ OnlyRegsIAndPc s t) ∧
    (4096 ≤ s.i.toNat + x.toNat →
      ∃ t, exec (.ldVxMem x) s.advancePc = .next t ∧
        TakesFatal s t .addressOutOfBounds (some (wordXK 0xF x 0x65)) (some (max s.i.toNat 4096)) ∧ t.turns = s.turns)

/-! ## Display -/

/-- 44 R200, R202, R203: DRW inverts exactly the pixels the sprite sets, and VF says whether one of them was lit; a sprite
that leaves memory raises AddressOutOfBounds. -/
def Obligations.DrwXorsSprite : Prop :=
  ∀ (s : State) (x y n : Nibble),
    decodeWord s.params (wordXYN 0xD x y n) = .ok (.drw x y n) ∧
    (n = 0 ∨ s.i.toNat + n.toNat ≤ 4096 →
      ∃ t, exec (.drw x y n) s.advancePc = .next t ∧ t.mode = s.mode ∧
        (∀ r c, s.SpriteSets x y n r c → t.disp.pixel r c = !s.disp.pixel r c) ∧
        (∀ r c, ¬ s.SpriteSets x y n r c → t.disp.pixel r c = s.disp.pixel r c) ∧
        ((∃ r c, s.SpriteSets x y n r c ∧ s.disp.pixel r c = true) → t.reg 0xF = 1) ∧
        (¬ (∃ r c, s.SpriteSets x y n r c ∧ s.disp.pixel r c = true) → t.reg 0xF = 0) ∧
        (∀ z, z ≠ 0xF → t.reg z = s.reg z) ∧ t.pc = s.pc + 2 ∧ t.i = s.i ∧ SameMem s t ∧ SameStack s t ∧ SameTimers s t ∧
        SameControl s t ∧ SameOutside s t ∧ SameModel s t) ∧
    (n ≠ 0 → 4096 < s.i.toNat + n.toNat →
      ∃ t, exec (.drw x y n) s.advancePc = .next t ∧
        TakesFatal s t .addressOutOfBounds (some (wordXYN 0xD x y n)) (some (max s.i.toNat 4096)) ∧ t.turns = s.turns)

/-- 44 R201: DRW with n = 0, wherever I points. -/
def Obligations.DrwOfZeroRows : Prop :=
  ∀ (s : State) (x y : Nibble),
    ∃ t, exec (.drw x y 0) s.advancePc = .next t ∧ t.disp = s.disp ∧ t.reg 0xF = 0 ∧ (∀ z, z ≠ 0xF → t.reg z = s.reg z) ∧
      t.pc = s.pc + 2 ∧ OnlyRegsAndPc s t

/-- 44 R204: the double-draw law. The second draw starts from any state with the same I, coordinates, memory, mode and the
frame buffer the first one left; it restores the frame buffer. Its VF is what R200 gives: 1 exactly if the first draw lit
a pixel. R204 says 1 for every sprite that is not all zero, which R200 contradicts where every pixel of the sprite
was lit before: log entry 18. -/
def Obligations.DrawingTwiceRestores : Prop :=
  ∀ (s t s' : State) (x y x' y' n : Nibble), n = 0 ∨ s.i.toNat + n.toNat ≤ 4096 →
    exec (.drw x y n) s.advancePc = .next t → s'.disp = t.disp → s'.i = s.i → SameMem s s' →
    s'.reg x' = s.reg x → s'.reg y' = s.reg y →
    ∃ u, exec (.drw x' y' n) s'.advancePc = .next u ∧ u.disp = s.disp ∧
      ((∃ r c, s.SpriteSets x y n r c ∧ s.disp.pixel r c = false) → u.reg 0xF = 1) ∧
      ((∀ r c, s.SpriteSets x y n r c → s.disp.pixel r c = true) → u.reg 0xF = 0)

/-- 44 R204, its sentence about VF, in its own terms: where the first draw met no lit pixel, the second sets VF = 1 if the
sprite has a set bit; an all-zero sprite sets VF = 0 in every case. The premise on the first draw is R200's, not R204's:
log entry 18. -/
def Obligations.SecondDrawReportsCollision : Prop :=
  ∀ (s t s' : State) (x y x' y' n : Nibble), n = 0 ∨ s.i.toNat + n.toNat ≤ 4096 →
    exec (.drw x y n) s.advancePc = .next t → s'.disp = t.disp → s'.i = s.i → SameMem s s' →
    s'.reg x' = s.reg x → s'.reg y' = s.reg y →
    ∃ u, exec (.drw x' y' n) s'.advancePc = .next u ∧
      (t.reg 0xF = 0 → (∃ k, k < n.toNat ∧ s.mem.read (s.i.toNat + k) ≠ 0) → u.reg 0xF = 1) ∧
      ((∀ k, k < n.toNat → s.mem.read (s.i.toNat + k) = 0) → u.reg 0xF = 0)

/-- 47 R260 to R263, R267: LOW and HIGH. A switch that changes the mode leaves a blank buffer of the new mode and emits
its geometry; one to the current mode changes nothing. -/
def Obligations.ModeSwitches : Prop :=
  ∀ s : State, (decodeWord s.params 0x00FE = .ok .low ∧ decodeWord s.params 0x00FF = .ok .high) ∧
    (∃ t, exec .low s.advancePc = .next t ∧ t.mode = .small ∧ t.pc = s.pc + 2 ∧ OnlyDisplayPcAndOut s t ∧
      (s.mode = .big → (∀ r c, t.disp.pixel r c = false) ∧ t.out = .geometry 64 32 :: s.out) ∧
      (s.mode = .small → t.disp = s.disp ∧ t.out = s.out)) ∧
    (∃ t, exec .high s.advancePc = .next t ∧ t.mode = .big ∧ t.pc = s.pc + 2 ∧ OnlyDisplayPcAndOut s t ∧
      (s.mode = .small → (∀ r c, t.disp.pixel r c = false) ∧ t.out = .geometry 128 64 :: s.out) ∧
      (s.mode = .big → t.disp = s.disp ∧ t.out = s.out))

/-- 30 R112, 47 R264 to R266: the scrolls are recognised and only emit the Unsupported diagnostic with their own word and address. -/
def Obligations.ScrollsOnlyDiagnose : Prop :=
  ∀ (s : State) (n : Nibble),
    (decodeWord s.params (wordXYN 0x0 0x0 0xC n) = .ok (.scd n) ∧ decodeWord s.params 0x00FB = .ok .scr ∧
      decodeWord s.params 0x00FC = .ok .scl) ∧
    (∃ t, exec (.scd n) s.advancePc = .next t ∧ t.pc = s.pc + 2 ∧
      t.out = .diag .unsupported (wordXYN 0x0 0x0 0xC n) s.pc :: s.out ∧ OnlyPcAndOut s t) ∧
    (∃ t, exec .scr s.advancePc = .next t ∧ t.pc = s.pc + 2 ∧ t.out = .diag .unsupported 0x00FB s.pc :: s.out ∧
      OnlyPcAndOut s t) ∧
    (∃ t, exec .scl s.advancePc = .next t ∧ t.pc = s.pc + 2 ∧ t.out = .diag .unsupported 0x00FC s.pc :: s.out ∧
      OnlyPcAndOut s t)

/-! ## Rules about every instruction -/

/-- 30 R113, 60 R322: every instruction, in every state, answers a next state: none faults the model or is refused. -/
def Obligations.EveryInstructionAnswersNext : Prop :=
  ∀ (i : Instr) (s : State), ∃ t, exec i s = .next t

/-- 10 R33: a register that the table of R33 does not name for the instruction is unchanged. -/
def Obligations.RegistersWrittenAsTabled : Prop :=
  ∀ (i : Instr) (s t : State) (y : Nibble), exec i s = .next t → ¬ WritesReg i y → t.reg y = s.reg y

/-- 20 R73, R76, R84: an instruction that changes a byte of memory is Fx33 or Fx55, and the byte lies in its range through I, inside
memory and above the glyph table. -/
def Obligations.OnlyStoresChangeMemory : Prop :=
  ∀ (i : Instr) (s t : State) (b : Nat), s.mem.wf = true → exec i s = .next t → t.mem.read b ≠ s.mem.read b →
    80 ≤ b ∧ b < 4096 ∧ s.i.toNat ≤ b ∧
      ((∃ x, i = .ldBVx x ∧ b ≤ s.i.toNat + 2) ∨ (∃ x : Nibble, i = .ldMemVx x ∧ b ≤ s.i.toNat + x.toNat))

/-- 10 R34, R40, R42, R45: the instructions that may change I, the call stack, each timer, the frame buffer and the mode. -/
def Obligations.StateWritersAreAsListed : Prop :=
  ∀ (i : Instr) (s t : State), exec i s = .next t →
    (t.i ≠ s.i → (∃ a, i = .ldI a) ∨ (∃ x, i = .addIVx x ∨ i = .ldFVx x) ∨
      (s.params.ldstIMode = .increment ∧ ∃ x, i = .ldMemVx x ∨ i = .ldVxMem x)) ∧
    (t.sp ≠ s.sp ∨ t.stack ≠ s.stack → i = .ret ∨ ∃ a, i = .call a) ∧
    (t.dt ≠ s.dt → ∃ x, i = .ldDtVx x) ∧ (t.st ≠ s.st → ∃ x, i = .ldStVx x) ∧
    (t.disp ≠ s.disp → i = .cls ∨ i = .low ∨ i = .high ∨ ∃ x y n, i = .drw x y n) ∧
    (t.mode ≠ s.mode → i = .low ∨ i = .high) ∧
    (t.waiting ≠ s.waiting → ∃ x, i = .ldVxK x) ∧ (t.draws ≠ s.draws → ∃ x kk, i = .rnd x kk)

/-- 10 R48, R52, R58, 60 R315: no instruction changes the keys, the image, the timer accumulator, the lifecycle bits, the
diagnostic state or the parameters. -/
def Obligations.InstructionsLeaveTheOutsideAlone : Prop :=
  ∀ (i : Instr) (s t : State), exec i s = .next t → SameOutside s t ∧ t.turns = s.turns

/-- 10 R36, by cases on the instruction: where it leaves `pc`. A fatal condition leaves it at the instruction's address;
otherwise it is where `PcAfter` says. R36's two other rows are stated apart: unknown opcodes, and Fx0A cancelled. -/
def Obligations.PcAfterEveryInstruction : Prop :=
  ∀ (i : Instr) (s t : State), s.fatal = none → exec i s.advancePc = .next t →
    (t.fatal ≠ none → t.pc = s.pc) ∧ (t.fatal = none → PcAfter i s t)

/-! ## Rules about every step -/

/-- 60 R301, R302: a step that ends with a fatal record where there was none was the engine's, and took that fatal condition
precisely: the record holds the address and, but for a fetch fault, the fetched word; nothing else changed. -/
def Obligations.FatalConditionsArePrecise : Prop :=
  ∀ s t : State, s.Safe → step s = .next t → ¬ t.Safe →
    ∃ s' kind w info, s.EngineTurn s' ∧ TakesFatal s t kind w info ∧ t.turns = s'.turns ∧
      ((w = none ∧ ¬ s.FetchLegal) ∨
        (w = some (wordOfBytes (s.mem.read s.pc.toNat) (s.mem.read (s.pc.toNat + 1))) ∧ s.FetchLegal))

/-- The invariant holds at construction (10 R56). -/
def Obligations.ResetMeetsInvariant : Prop := State.reset.Inv ∧ State.reset.GlyphsIntact

/-- Every step, of whatever agent, keeps the invariant: canonical memory, the accumulator's range (10 R49), Stopping as a
pending Stop request (R55), and what waiting, a fatal record, running and a waiting Restart imply. No step changes the
parameters (00 R8). -/
def Obligations.EveryStepKeepsInvariant : Prop :=
  ∀ s t : State, s.Inv → step s = .next t → t.Inv ∧ t.params = s.params

/-- 20 R76, 95 W1: once a program is loaded, no step changes the glyph table, under either value of GLYPH_WRITE. -/
def Obligations.EveryStepKeepsGlyphTable : Prop :=
  ∀ s t : State, s.Inv → s.GlyphsIntact → step s = .next t → t.GlyphsIntact

/-- 10 R54, 60 R340: the debug toggle and the counter change nothing else: two states that differ only in them step to
states that differ only in them, or both stop. -/
def Obligations.DiagnosticStateHasNoEffect : Prop :=
  ∀ (s : State) (b : Bool) (n : Nat),
    (∀ t, step s = .next t → ∃ b' n', step { s with debug := b, counter := n } = .next { t with debug := b', counter := n' }) ∧
    (∀ r, step s = .fault r → step { s with debug := b, counter := n } = .fault r) ∧
    (∀ r, step s = .refused r → step { s with debug := b, counter := n } = .refused r)

/-! ## The other agents -/

/-- 10 R56, R57: every register at construction, and every byte of memory. -/
def Obligations.ConstructionValues : Prop :=
  (∀ y, State.reset.reg y = 0) ∧ State.reset.i = 0 ∧ State.reset.pc = 0x200 ∧ State.reset.sp = 0 ∧
    (∀ j : Fin 16, State.reset.stack[j] = 0) ∧ State.reset.dt = 0 ∧ State.reset.st = 0 ∧
    (∀ k : Fin 16, State.reset.key[k] = false) ∧ State.reset.mode = .small ∧
    (∀ r c, State.reset.disp.pixel r c = false) ∧ (∀ a, State.reset.mem.read a = 0) ∧
    (∀ a, State.reset.image.read a = 0) ∧ State.reset.acc = 0 ∧ State.reset.stopReq = false ∧
    State.reset.waiting = none ∧ State.reset.fatal = none ∧ State.reset.run = .stopped ∧ State.reset.loaded = false ∧
    State.reset.ran = false

/-- 70 R350, R351: Load while Stopped. A program that fits is laid out and every field that R350 names is reset; one that
does not changes nothing and is answered with its length. The model's choices: the reply joins the output history after
Geometry (log entry 11), and a Load leaves waiting Restarts waiting (log entry 6). -/
def Obligations.LoadResetsOrRejects : Prop :=
  ∀ (s : State) (p : List Byte) (rest : List Turn), s.turns = .load p :: rest → s.run = .stopped →
    (3584 < p.length → step s = .next { s with turns := rest, out := .loadReply (.outOfBounds p.length) :: s.out }) ∧
    (p.length ≤ 3584 →
      ∃ t, step s = .next t ∧ (∀ d : Fin 80, t.mem.read d.val = s.params.glyphs[d]) ∧
        (∀ k : Fin p.length, t.mem.read (0x200 + k.val) = p[k]) ∧
        (∀ a, (80 ≤ a ∧ a < 0x200) ∨ 0x200 + p.length ≤ a → t.mem.read a = 0) ∧ t.image = t.mem ∧
        (∀ y, t.reg y = 0) ∧ t.i = 0 ∧ t.pc = 0x200 ∧ t.sp = 0 ∧ (∀ j : Fin 16, t.stack[j] = 0) ∧ t.dt = 0 ∧ t.st = 0 ∧
        (∀ k : Fin 16, t.key[k] = false) ∧ t.mode = .small ∧ (∀ r c, t.disp.pixel r c = false) ∧ t.acc = s.acc ∧
        t.stopReq = false ∧ t.waiting = none ∧ t.fatal = none ∧ t.run = .stopped ∧ t.loaded = true ∧ t.ran = false ∧
        t.debug = s.debug ∧ t.counter = s.counter ∧ t.restarts = s.restarts ∧ t.params = s.params ∧ t.draws = s.draws ∧
        t.turns = rest ∧ t.out = .loadReply .ok :: .geometry 64 32 :: s.out)

/-- 60 R316, R317: Start and Stop. -/
def Obligations.StartAndStop : Prop :=
  ∀ (s : State) (rest : List Turn),
    (s.turns = .start :: rest → s.run = .stopped → s.loaded = true → s.fatal = none →
      step s = .next { s with turns := rest, run := .running, ran := true }) ∧
    (s.turns = .start :: rest → (s.run ≠ .stopped ∨ s.loaded = false ∨ s.fatal ≠ none) →
      step s = .next { s with turns := rest }) ∧
    (s.turns = .stop :: rest → s.run = .running →
      step s = .next { s with turns := rest, run := .stopping, stopReq := true }) ∧
    (s.turns = .stop :: rest → s.run ≠ .running → step s = .next { s with turns := rest })

/-- 60 R319, 70 R356: a Restart of a Stopped core that has run, by RESTART_MEMORY; then the core runs. The model's
choices: it ends in the step of its call, and other waiting Restarts stay (log entry 6). -/
def Obligations.RestartFromStopped : Prop :=
  ∀ (s : State) (rest : List Turn), s.turns = .restart :: rest → s.run = .stopped → s.ran = true →
    ∃ t, step s = .next t ∧
      (s.params.restartMemory = .reloadImage → t.mem = s.image) ∧ (s.params.restartMemory = .keep → t.mem = s.mem) ∧
      t.image = s.image ∧ (∀ y, t.reg y = 0) ∧ t.i = 0 ∧ t.pc = 0x200 ∧ t.sp = 0 ∧ (∀ j : Fin 16, t.stack[j] = 0) ∧
      t.dt = 0 ∧ t.st = 0 ∧ (∀ k : Fin 16, t.key[k] = false) ∧ t.mode = .small ∧ (∀ r c, t.disp.pixel r c = false) ∧
      t.acc = s.acc ∧ t.stopReq = false ∧ t.waiting = none ∧ t.fatal = none ∧ t.run = .running ∧ t.loaded = s.loaded ∧
      t.ran = true ∧ t.debug = s.debug ∧ t.counter = s.counter ∧ t.restarts = s.restarts ∧ t.params = s.params ∧
      t.draws = s.draws ∧ t.turns = rest ∧
      (s.mode = .big → t.out = .geometry 64 32 :: s.out) ∧ (s.mode = .small → t.out = s.out)

/-- 60 R319, R320: a Restart of a running core asks the engine to stop; the engine's next turn stops it, waiting for a key or
not; and then the core is reset and runs again. -/
def Obligations.RestartOfRunningCompletes : Prop :=
  ∀ s : State, s.turns = [.restart, .engine, .restartFinish] → s.run = .running → s.fatal = none →
    ∃ t u v, step s = .next t ∧ step t = .next u ∧ step u = .next v ∧
      t.run = .stopping ∧ t.stopReq = true ∧ t.pc = s.pc ∧ SameRegs s t ∧
      u.run = .stopped ∧ u.stopReq = false ∧ SameRegs s u ∧ SameMem s u ∧
      v.run = .running ∧ v.restarts = s.restarts ∧ v.pc = 0x200 ∧ (∀ y, v.reg y = 0) ∧ v.sp = 0 ∧ v.waiting = none ∧
      (s.params.restartMemory = .reloadImage → v.mem = s.image) ∧ (s.params.restartMemory = .keep → v.mem = s.mem)

/-- 60 R325, R327: a timer step of `n` whole ticks: DT and ST count down by `n`, floored at 0, the rest of the time is kept,
and one beep is emitted if ST goes from nonzero to 0. -/
def Obligations.TimerStepCountsTicks : Prop :=
  ∀ (s : State) (ms : Rat) (n : Nat) (rest : List Turn), s.turns = .timeStep ms :: rest → 0 ≤ ms → 0 < s.params.tickMs →
    n * s.params.tickMs ≤ s.acc + ms → s.acc + ms < (n + 1) * s.params.tickMs →
    ∃ t, step s = .next t ∧ t.acc = s.acc + ms - n * s.params.tickMs ∧ t.dt.toNat = s.dt.toNat - n ∧
      t.st.toNat = s.st.toNat - n ∧
      (s.st ≠ 0 ∧ s.st.toNat ≤ n → t.out = .beep :: s.out) ∧ (¬ (s.st ≠ 0 ∧ s.st.toNat ≤ n) → t.out = s.out) ∧
      SameRegs s t ∧ t.i = s.i ∧ t.pc = s.pc ∧ SameStack s t ∧ SameMem s t ∧ SameDisplay s t ∧ SameControl s t ∧
      t.key = s.key ∧ t.image = s.image ∧ t.loaded = s.loaded ∧ t.ran = s.ran ∧ t.debug = s.debug ∧
      t.counter = s.counter ∧ t.restarts = s.restarts ∧ t.params = s.params ∧ t.draws = s.draws ∧ t.turns = rest

/-- 60 R325, 95 W10: leftover time carries: two timer steps count what one step of their sum counts. -/
def Obligations.TimerStepsAddUp : Prop :=
  ∀ (s : State) (m₁ m₂ : Rat) (t u v : State), 0 < s.params.tickMs → 0 ≤ s.acc → 0 ≤ m₁ → 0 ≤ m₂ →
    step { s with turns := [.timeStep m₁, .timeStep m₂] } = .next t → step t = .next u →
    step { s with turns := [.timeStep (m₁ + m₂)] } = .next v → u.acc = v.acc ∧ u.dt = v.dt ∧ u.st = v.st

/-- 60 R330, R332: `set_key` writes one key, and a snapshot reports the buffer and changes no state. -/
def Obligations.KeyAndSnapshotPorts : Prop :=
  ∀ (s : State) (rest : List Turn),
    (∀ (k : Fin 16) (b : Bool), s.turns = .setKey k.val b :: rest →
      ∃ t, step s = .next t ∧ t.key[k] = b ∧ (∀ j : Fin 16, j ≠ k → t.key[j] = s.key[j]) ∧
        { t with key := s.key } = { s with turns := rest }) ∧
    (s.turns = .snapshot :: rest → step s = .next { s with turns := rest, out := .snapshot s.disp :: s.out })

/-- 70 R352, 60 R330, R324, R334, 93: the host calls outside the host's contract are refused, each by its name (log entry 7). -/
def Obligations.CallsOutsideContractAreRefused : Prop :=
  ∀ (s : State) (rest : List Turn),
    (∀ p, s.turns = .load p :: rest → s.run ≠ .stopped → step s = .refused .loadWhileRunning) ∧
    (∀ k b, s.turns = .setKey k b :: rest → 15 < k → step s = .refused (.keyNumberOutOfRange k)) ∧
    (∀ ms, s.turns = .timeStep ms :: rest → ms < 0 → step s = .refused .negativeTime)

/-- 70 R355, R358, R359, 60 R316: from construction, Load of a program that fits and then Start leave the core running at 0x200
with the program in memory and every register 0. -/
def Obligations.LoadThenStartBoots : Prop :=
  ∀ p : List Byte, p.length ≤ 3584 →
    ∃ t u, step { State.reset with turns := [.load p, .start] } = .next t ∧ step t = .next u ∧ u.run = .running ∧
      u.ran = true ∧ u.loaded = true ∧ u.pc = 0x200 ∧ (∀ y, u.reg y = 0) ∧ u.sp = 0 ∧ u.dt = 0 ∧ u.st = 0 ∧
      (∀ k : Fin p.length, u.mem.read (0x200 + k.val) = p[k]) ∧ u.turns = [] ∧ u.Ready
end

