-- ==== Sys2Proof/Laws/Decode.lean ====
section
/-! SUPPORT. The fields of a word built from fields (30 R104, R105), and a word from its fields. -/

namespace Sys2Proof

theorem getLsbD_wordA (f : Nibble) (a : Addr) (i : Nat) :
    (wordA f a).getLsbD i = if i < 12 then a.getLsbD i else f.getLsbD (i - 12) :=
  (BitVec.getLsbD_append (x := f) (y := a) (i := i)).trans (by simp)

theorem getLsbD_wordXK (f x : Nibble) (k : Byte) (i : Nat) :
    (wordXK f x k).getLsbD i =
      if i < 8 then k.getLsbD i else if i - 8 < 4 then x.getLsbD (i - 8) else f.getLsbD (i - 8 - 4) := by
  refine (BitVec.getLsbD_append (x := f ++ x) (y := k) (i := i)).trans ?_
  rw [BitVec.getLsbD_append]

theorem getLsbD_wordXYN (f x y n : Nibble) (i : Nat) :
    (wordXYN f x y n).getLsbD i =
      if i < 4 then n.getLsbD i else if i - 4 < 4 then y.getLsbD (i - 4)
      else if i - 4 - 4 < 4 then x.getLsbD (i - 4 - 4) else f.getLsbD (i - 4 - 4 - 4) := by
  refine (BitVec.getLsbD_append (x := f ++ x ++ y) (y := n) (i := i)).trans ?_
  rw [BitVec.getLsbD_append, BitVec.getLsbD_append]

theorem getLsbD_wordOfBytes (hi lo : Byte) (i : Nat) :
    (wordOfBytes hi lo).getLsbD i = if i < 8 then lo.getLsbD i else hi.getLsbD (i - 8) :=
  (BitVec.getLsbD_append (x := hi) (y := lo) (i := i)).trans (by simp)

theorem getLsbD_fieldN1 (w : Word) (i : Nat) : (fieldN1 w).getLsbD i = (decide (i < 4) && w.getLsbD (12 + i)) := by
  simp [fieldN1]

theorem getLsbD_fieldX (w : Word) (i : Nat) : (fieldX w).getLsbD i = (decide (i < 4) && w.getLsbD (8 + i)) := by
  simp [fieldX]

theorem getLsbD_fieldY (w : Word) (i : Nat) : (fieldY w).getLsbD i = (decide (i < 4) && w.getLsbD (4 + i)) := by
  simp [fieldY]

theorem getLsbD_fieldN (w : Word) (i : Nat) : (fieldN w).getLsbD i = (decide (i < 4) && w.getLsbD i) := by
  simp [fieldN]

theorem getLsbD_fieldKK (w : Word) (i : Nat) : (fieldKK w).getLsbD i = (decide (i < 8) && w.getLsbD i) := by
  simp [fieldKK]

theorem getLsbD_fieldNNN (w : Word) (i : Nat) : (fieldNNN w).getLsbD i = (decide (i < 12) && w.getLsbD i) := by
  simp [fieldNNN]

@[simp] theorem fieldN1_wordA (f : Nibble) (a : Addr) : fieldN1 (wordA f a) = f := by
  apply BitVec.eq_of_getLsbD_eq; intro i hi
  rw [getLsbD_fieldN1, getLsbD_wordA]
  interval_cases i <;> simp
@[simp] theorem fieldNNN_wordA (f : Nibble) (a : Addr) : fieldNNN (wordA f a) = a := by
  apply BitVec.eq_of_getLsbD_eq; intro i hi
  rw [getLsbD_fieldNNN, getLsbD_wordA]
  interval_cases i <;> simp

@[simp] theorem fieldN1_wordXK (f x : Nibble) (k : Byte) : fieldN1 (wordXK f x k) = f := by
  apply BitVec.eq_of_getLsbD_eq; intro i hi
  rw [getLsbD_fieldN1, getLsbD_wordXK]
  interval_cases i <;> simp
@[simp] theorem fieldX_wordXK (f x : Nibble) (k : Byte) : fieldX (wordXK f x k) = x := by
  apply BitVec.eq_of_getLsbD_eq; intro i hi
  rw [getLsbD_fieldX, getLsbD_wordXK]
  interval_cases i <;> simp
@[simp] theorem fieldKK_wordXK (f x : Nibble) (k : Byte) : fieldKK (wordXK f x k) = k := by
  apply BitVec.eq_of_getLsbD_eq; intro i hi
  rw [getLsbD_fieldKK, getLsbD_wordXK]
  interval_cases i <;> simp

@[simp] theorem fieldN1_wordXYN (f x y n : Nibble) : fieldN1 (wordXYN f x y n) = f := by
  apply BitVec.eq_of_getLsbD_eq; intro i hi
  rw [getLsbD_fieldN1, getLsbD_wordXYN]
  interval_cases i <;> simp
@[simp] theorem fieldX_wordXYN (f x y n : Nibble) : fieldX (wordXYN f x y n) = x := by
  apply BitVec.eq_of_getLsbD_eq; intro i hi
  rw [getLsbD_fieldX, getLsbD_wordXYN]
  interval_cases i <;> simp
@[simp] theorem fieldY_wordXYN (f x y n : Nibble) : fieldY (wordXYN f x y n) = y := by
  apply BitVec.eq_of_getLsbD_eq; intro i hi
  rw [getLsbD_fieldY, getLsbD_wordXYN]
  interval_cases i <;> simp
@[simp] theorem fieldN_wordXYN (f x y n : Nibble) : fieldN (wordXYN f x y n) = n := by
  apply BitVec.eq_of_getLsbD_eq; intro i hi
  rw [getLsbD_fieldN, getLsbD_wordXYN]
  interval_cases i <;> simp

/-- A word is its family nibble and its 12-bit field. -/
theorem wordA_fields (w : Word) : wordA (fieldN1 w) (fieldNNN w) = w := by
  apply BitVec.eq_of_getLsbD_eq; intro i hi
  simp only [getLsbD_wordA, getLsbD_fieldN1, getLsbD_fieldNNN]
  interval_cases i <;> simp

/-- A word is its family nibble, `x` and its low byte. -/
theorem wordXK_fields (w : Word) : wordXK (fieldN1 w) (fieldX w) (fieldKK w) = w := by
  apply BitVec.eq_of_getLsbD_eq; intro i hi
  simp only [getLsbD_wordXK, getLsbD_fieldN1, getLsbD_fieldX, getLsbD_fieldKK]
  interval_cases i <;> simp

/-- A word is its four nibbles (00 R13). -/
theorem wordXYN_fields (w : Word) : wordXYN (fieldN1 w) (fieldX w) (fieldY w) (fieldN w) = w := by
  apply BitVec.eq_of_getLsbD_eq; intro i hi
  simp only [getLsbD_wordXYN, getLsbD_fieldN1, getLsbD_fieldX, getLsbD_fieldY, getLsbD_fieldN]
  interval_cases i <;> simp

/-- Dropping the low nibble of a word (30 R109, LOW_NIBBLE_59). -/
theorem wordXYN_low_zero (w : Word) : wordXYN (fieldN1 w) (fieldX w) (fieldY w) 0 = w &&& 0xFFF0 := by
  apply BitVec.eq_of_getLsbD_eq
  intro i hi
  simp only [wordXYN, fieldN1, fieldX, fieldY, BitVec.getLsbD_append, BitVec.getLsbD_extractLsb', BitVec.getLsbD_and]
  interval_cases i <;> simp

/-- The low byte is the two low nibbles, as numbers. -/
theorem fieldKK_toNat (w : Word) : (fieldKK w).toNat = (fieldY w).toNat * 16 + (fieldN w).toNat := by
  simp only [fieldKK, fieldY, fieldN, BitVec.extractLsb'_toNat, Nat.shiftRight_eq_div_pow]
  omega

/-- The 12-bit field is `x` and the low byte, as numbers. -/
theorem fieldNNN_toNat (w : Word) : (fieldNNN w).toNat = (fieldX w).toNat * 256 + (fieldKK w).toNat := by
  simp only [fieldNNN, fieldX, fieldKK, BitVec.extractLsb'_toNat, Nat.shiftRight_eq_div_pow]
  omega

/-- The bytes of a word join to the word (20 R80). -/
@[simp] theorem wordOfBytes_extract (w : Word) : wordOfBytes (w.extractLsb' 8 8) (w.extractLsb' 0 8) = w := by
  apply BitVec.eq_of_getLsbD_eq; intro i hi
  rw [getLsbD_wordOfBytes]
  interval_cases i <;> simp

/-- The decoder on two bytes or more is the decoder on their word. -/
theorem decode_two (p : Params) (hi lo : Byte) (rest : List Byte) (i : Instr) (r : List Byte) :
    decode p (hi :: lo :: rest) = .ok (i, r) ↔ decodeWord p (wordOfBytes hi lo) = .ok i ∧ r = rest := by
  simp only [decode]
  cases decodeWord p (wordOfBytes hi lo) with
  | ok j => simp [eq_comm]
  | error e => simp

/-- Bytes that are no instruction are rejected with the error of their word. -/
theorem decode_two_error (p : Params) (hi lo : Byte) (rest : List Byte) (e : DecodeError) :
    decode p (hi :: lo :: rest) = .error e ↔ decodeWord p (wordOfBytes hi lo) = .error e := by
  simp only [decode]
  cases decodeWord p (wordOfBytes hi lo) with
  | ok j => simp
  | error e => simp

end Sys2Proof
end

