-- ==== Sys2Proof/Laws/Memory.lean ====
section
/-! SUPPORT. Memory: reads after writes, and that every operation keeps the canonical form. -/

namespace Sys2Proof.Machine.Memory

theorem wfFrom_cons (lo k : Nat) (b : Byte) (t : Memory) :
    wfFrom lo ((k, b) :: t) = true ↔ lo ≤ k ∧ k < memSize ∧ b ≠ 0 ∧ wfFrom (k + 1) t = true := by
  simp [wfFrom, and_assoc]

/-- The canonical form from `lo` holds from every smaller address. -/
theorem wfFrom_mono {lo lo' : Nat} {m : Memory} (h : wfFrom lo m = true) (hl : lo' ≤ lo) : wfFrom lo' m = true := by
  cases m with
  | nil => rfl
  | cons c t =>
    obtain ⟨k, b⟩ := c
    rw [wfFrom_cons] at h ⊢
    exact ⟨by omega, h.2⟩

/-- Below its first address a canonical memory reads 0. -/
theorem read_below {lo a : Nat} {m : Memory} (h : wfFrom lo m = true) (ha : a < lo) : m.read a = 0 := by
  induction m generalizing lo with
  | nil => rfl
  | cons c t ih =>
    obtain ⟨k, b⟩ := c
    rw [wfFrom_cons] at h
    have hk : k ≠ a := by omega
    simp only [read, hk, if_false]
    exact ih h.2.2.2 (by omega)

/-- An address outside the space reads 0 (the checks of 20 R83 never let an instruction read it). -/
theorem read_outside {lo a : Nat} {m : Memory} (h : wfFrom lo m = true) (ha : memSize ≤ a) : m.read a = 0 := by
  induction m generalizing lo with
  | nil => rfl
  | cons c t ih =>
    obtain ⟨k, b⟩ := c
    rw [wfFrom_cons] at h
    have hk : k ≠ a := by omega
    simp only [read, hk, if_false]
    exact ih h.2.2.2

/-- A read after a write: the written byte at its address, every other byte as before. -/
theorem read_write_from {lo : Nat} {m : Memory} (h : wfFrom lo m = true) (a b : Nat) (v : Byte) :
    (m.write a v).read b = if b = a then v else m.read b := by
  induction m generalizing lo with
  | nil =>
    by_cases hv : v = 0
    · by_cases hb : b = a <;> simp [write, read, hv, hb]
    · by_cases hb : b = a
      · simp only [write, if_neg hv, read, hb, if_true]
      · simp only [write, if_neg hv, read, hb, Ne.symm hb, if_false]
  | cons c t ih =>
    obtain ⟨k, d⟩ := c
    have h' := h
    rw [wfFrom_cons] at h
    rcases Nat.lt_trichotomy a k with hak | hak | hak
    · by_cases hv : v = 0
      · by_cases hb : b = a
        · subst hb
          have hr := read_below (a := b) (m := (k, d) :: t) (lo := b + 1)
            ((wfFrom_cons _ _ _ _).2 ⟨hak, h.2⟩) (Nat.lt_succ_self b)
          simp [write, hak, hv, hr]
        · simp [write, hak, hv, hb]
      · by_cases hb : b = a
        · simp only [write, hak, if_neg hv, read, hb, if_true]
        · simp only [write, hak, if_neg hv, read, hb, Ne.symm hb, if_true, if_false]
    · subst hak
      by_cases hv : v = 0
      · by_cases hb : b = a
        · subst hb
          simp [write, hv, read_below h.2.2.2 (Nat.lt_succ_self b)]
        · simp [write, hv, hb, read, Ne.symm hb]
      · by_cases hb : b = a
        · simp only [write, Nat.lt_irrefl, if_neg hv, read, hb, if_true, if_false]
        · simp only [write, Nat.lt_irrefl, if_neg hv, read, hb, Ne.symm hb, if_true, if_false]
    · have hn : ¬ a < k := by omega
      have hn' : a ≠ k := by omega
      by_cases hb : b = k
      · have hba : b ≠ a := by omega
        subst hb
        simp [write, hn, hn', read, hba]
      · simp [write, hn, hn', read, Ne.symm hb, ih h.2.2.2]

/-- A write keeps the canonical form. -/
theorem wfFrom_write {lo : Nat} {m : Memory} (h : wfFrom lo m = true) {a : Nat} (v : Byte) (hl : lo ≤ a)
    (ha : a < memSize) : wfFrom lo (m.write a v) = true := by
  induction m generalizing lo with
  | nil =>
    by_cases hv : v = 0
    · simp [write, hv, wfFrom]
    · simp only [write, if_neg hv]
      exact (wfFrom_cons _ _ _ _).2 ⟨hl, ha, hv, rfl⟩
  | cons c t ih =>
    obtain ⟨k, d⟩ := c
    have h' := h
    rw [wfFrom_cons] at h
    rcases Nat.lt_trichotomy a k with hak | hak | hak
    · by_cases hv : v = 0
      · simp [write, hak, hv, h']
      · simp only [write, hak, hv, if_true, if_false]
        exact (wfFrom_cons _ _ _ _).2 ⟨hl, ha, hv, (wfFrom_cons _ _ _ _).2 ⟨hak, h.2⟩⟩
    · subst hak
      by_cases hv : v = 0
      · simp only [write, Nat.lt_irrefl, hv, if_true, if_false]
        exact wfFrom_mono h.2.2.2 (by omega)
      · simp only [write, Nat.lt_irrefl, hv, if_true, if_false]
        exact (wfFrom_cons _ _ _ _).2 ⟨hl, ha, hv, h.2.2.2⟩
    · have hn : ¬ a < k := by omega
      have hn' : a ≠ k := by omega
      simp only [write, hn, hn', if_false]
      exact (wfFrom_cons _ _ _ _).2 ⟨h.1, h.2.1, h.2.2.1, ih h.2.2.2 hak⟩

theorem read_write {m : Memory} (h : m.wf = true) (a b : Nat) (v : Byte) :
    (m.write a v).read b = if b = a then v else m.read b := read_write_from h a b v

theorem wf_write {m : Memory} (h : m.wf = true) {a : Nat} (v : Byte) (ha : a < memSize) : (m.write a v).wf = true :=
  wfFrom_write h v (Nat.zero_le a) ha

/-- Canonical memories that read alike are equal data. -/
theorem eq_of_read_eq_from {lo : Nat} {m m' : Memory} (h : wfFrom lo m = true) (h' : wfFrom lo m' = true)
    (e : ∀ a, m.read a = m'.read a) : m = m' := by
  induction m generalizing lo m' with
  | nil =>
    cases m' with
    | nil => rfl
    | cons c t =>
      obtain ⟨k, b⟩ := c
      have hk := e k
      rw [wfFrom_cons] at h'
      simp only [read, if_true] at hk
      exact absurd hk.symm h'.2.2.1
  | cons c t ih =>
    obtain ⟨k, b⟩ := c
    cases m' with
    | nil =>
      have hk := e k
      rw [wfFrom_cons] at h
      simp only [read, if_true] at hk
      exact absurd hk h.2.2.1
    | cons c' t' =>
      obtain ⟨k', b'⟩ := c'
      rw [wfFrom_cons] at h h'
      have hkk : k = k' := by
        rcases Nat.lt_trichotomy k k' with hlt | heq | hlt
        · have hk := e k
          have hr := read_below (a := k) (m := (k', b') :: t') (lo := k + 1)
            ((wfFrom_cons _ _ _ _).2 ⟨hlt, h'.2⟩) (Nat.lt_succ_self k)
          rw [hr] at hk
          simp only [read, if_true] at hk
          exact absurd hk h.2.2.1
        · exact heq
        · have hk := e k'
          have hr := read_below (a := k') (m := (k, b) :: t) (lo := k' + 1)
            ((wfFrom_cons _ _ _ _).2 ⟨hlt, h.2⟩) (Nat.lt_succ_self k')
          rw [hr] at hk
          simp only [read, if_true] at hk
          exact absurd hk.symm h'.2.2.1
      subst hkk
      have hb : b = b' := by simpa [read] using e k
      subst hb
      congr 1
      refine ih h.2.2.2 h'.2.2.2 fun a => ?_
      by_cases ha : k = a
      · subst ha
        rw [read_below h.2.2.2 (Nat.lt_succ_self k), read_below h'.2.2.2 (Nat.lt_succ_self k)]
      · simpa [read, ha] using e a

theorem eq_of_read_eq {m m' : Memory} (h : m.wf = true) (h' : m'.wf = true) (e : ∀ a, m.read a = m'.read a) : m = m' :=
  eq_of_read_eq_from h h' e

/-! ## Checked stores -/

/-- A checked store: the byte lands between the glyph table and the end of memory, and nowhere else (20 R84). -/
theorem read_store {m : Memory} (h : m.wf = true) (a b : Nat) (v : Byte) :
    (m.store a v).read b = if b = a ∧ glyphLen ≤ a ∧ a < memSize then v else m.read b := by
  unfold store
  split
  · rename_i hc
    rw [if_neg]
    omega
  · rename_i hc
    rw [read_write h]
    have : glyphLen ≤ a ∧ a < memSize := by omega
    simp [this]

theorem wf_store {m : Memory} (h : m.wf = true) (a : Nat) (v : Byte) : (m.store a v).wf = true := by
  unfold store
  split
  · exact h
  · exact wf_write h v (by omega)

theorem wf_storeAll {m : Memory} (h : m.wf = true) (a : Nat) (l : List Byte) : (m.storeAll a l).wf = true := by
  induction l generalizing m a with
  | nil => exact h
  | cons b t ih => exact ih (wf_store h a b) (a + 1)

/-- Checked stores of a run of bytes: each byte of the run that lies between the glyph table and the end of memory holds
its new value, every other byte is as before. -/
theorem read_storeAll {m : Memory} (h : m.wf = true) (a : Nat) (l : List Byte) (b : Nat) :
    (m.storeAll a l).read b =
      if a ≤ b ∧ b < a + l.length ∧ glyphLen ≤ b ∧ b < memSize then l.getD (b - a) 0 else m.read b := by
  induction l generalizing m a with
  | nil => simp [storeAll]; omega
  | cons v t ih =>
    simp only [storeAll]
    rw [ih (wf_store h a v), read_store h]
    by_cases h1 : b = a
    · subst h1
      have : ¬ (b + 1 ≤ b) := by omega
      simp [this]
    · by_cases h2 : a + 1 ≤ b
      · have h3 : b - a = b - (a + 1) + 1 := by omega
        have h4 : a ≤ b := by omega
        have h5 : (b < a + 1 + t.length) ↔ (b < a + (t.length + 1)) := by omega
        simp [h1, h2, h3, h4, h5, List.getD]
      · have h4 : ¬ a ≤ b := by omega
        simp [h1, h2, h4]

/-! ## Runs of bytes -/

@[simp] theorem length_readAll (m : Memory) (a n : Nat) : (m.readAll a n).length = n := by
  induction n generalizing a with
  | zero => rfl
  | succ n ih => simp [readAll, ih]

/-- The k-th byte of a run is the byte at the k-th address. -/
theorem getElem_readAll (m : Memory) (a n k : Nat) (hk : k < n) :
    (m.readAll a n)[k]'(by simpa using hk) = m.read (a + k) := by
  induction n generalizing a k with
  | zero => omega
  | succ n ih =>
    cases k with
    | zero => simp [readAll]
    | succ k =>
      simp only [readAll, List.getElem_cons_succ]
      rw [ih (a + 1) k (by omega)]
      congr 1
      omega

theorem wfFrom_placeFrom (a lo : Nat) (l : List Byte) (hl : lo ≤ a) (he : a + l.length ≤ memSize) :
    wfFrom lo (placeFrom a l) = true := by
  induction l generalizing a lo with
  | nil => rfl
  | cons b t ih =>
    simp only [List.length_cons] at he
    by_cases hb : b = 0
    · simp only [placeFrom, hb, if_true]
      exact ih (a + 1) lo (by omega) (by omega)
    · simp only [placeFrom, hb, if_false]
      exact (wfFrom_cons _ _ _ _).2 ⟨hl, by omega, hb, ih (a + 1) (a + 1) (le_refl _) (by omega)⟩

/-- A laid-out run reads back, and is 0 elsewhere. -/
theorem read_placeFrom (a : Nat) (l : List Byte) (b : Nat) :
    (placeFrom a l).read b = if a ≤ b ∧ b < a + l.length then l.getD (b - a) 0 else 0 := by
  induction l generalizing a with
  | nil => simp [placeFrom, read]
  | cons v t ih =>
    by_cases hv : v = 0
    · simp only [placeFrom, hv, if_true]
      rw [ih]
      by_cases h1 : b = a
      · subst h1
        have : ¬ (b + 1 ≤ b) := by omega
        simp [this]
      · by_cases h2 : a + 1 ≤ b
        · have h3 : b - a = b - (a + 1) + 1 := by omega
          have h4 : a ≤ b := by omega
          have h5 : (b < a + 1 + t.length) ↔ (b < a + (t.length + 1)) := by omega
          simp [h2, h3, h4, h5, List.getD]
        · have h4 : ¬ a ≤ b := by omega
          simp [h2, h4]
    · simp only [placeFrom, hv, if_false, read]
      rw [ih]
      by_cases h1 : a = b
      · subst h1; simp
      · by_cases h2 : a + 1 ≤ b
        · have h3 : b - a = b - (a + 1) + 1 := by omega
          have h4 : a ≤ b := by omega
          have h5 : (b < a + 1 + t.length) ↔ (b < a + (t.length + 1)) := by omega
          simp [h1, h2, h3, h4, h5, List.getD]
        · have h4 : ¬ a ≤ b := by omega
          simp [h1, h2, h4]

/-- Two canonical memories, the second above the first, joined. -/
theorem wfFrom_append {lo c : Nat} {m m' : Memory} (h : wfFrom lo m = true) (hc : ∀ p ∈ m, p.1 < c)
    (h' : wfFrom c m' = true) (hlo : lo ≤ c) : wfFrom lo (m ++ m') = true := by
  induction m generalizing lo with
  | nil => exact wfFrom_mono h' hlo
  | cons d t ih =>
    obtain ⟨k, b⟩ := d
    rw [wfFrom_cons] at h
    have hk : k < c := hc (k, b) (by simp)
    exact (wfFrom_cons _ _ _ _).2 ⟨h.1, h.2.1, h.2.2.1, ih h.2.2.2 (fun p hp => hc p (by simp [hp])) hk⟩

theorem placeFrom_lt (a : Nat) (l : List Byte) : ∀ p ∈ placeFrom a l, a ≤ p.1 ∧ p.1 < a + l.length := by
  induction l generalizing a with
  | nil => simp [placeFrom]
  | cons b t ih =>
    intro p hp
    by_cases hb : b = 0
    · simp only [placeFrom, hb, if_true] at hp
      have := ih (a + 1) p hp
      simp; omega
    · simp only [placeFrom, hb, if_false, List.mem_cons] at hp
      rcases hp with rfl | hp
      · simp
      · have := ih (a + 1) p hp
        simp; omega

theorem read_append (m m' : Memory) (a : Nat) (h : ∀ p ∈ m, p.1 ≠ a) : Memory.read (m ++ m') a = m'.read a := by
  induction m with
  | nil => rfl
  | cons d t ih =>
    obtain ⟨k, b⟩ := d
    have hk : k ≠ a := h (k, b) (by simp)
    show (if k = a then b else Memory.read (t ++ m') a) = _
    rw [if_neg hk]
    exact ih fun p hp => h p (by simp [hp])

theorem read_append_left (m m' : Memory) (a : Nat) (h : ∀ p ∈ m', p.1 ≠ a) : Memory.read (m ++ m') a = m.read a := by
  induction m with
  | nil =>
    have := read_append m' [] a h
    simpa [read] using this
  | cons d t ih =>
    obtain ⟨k, b⟩ := d
    show (if k = a then b else Memory.read (t ++ m') a) = (if k = a then b else Memory.read t a)
    rw [ih]

/-- Memory as Load leaves it is canonical when the program fits (70 R350). -/
theorem wf_loaded (g : Vector Byte 80) (p : List Byte) (hp : p.length ≤ 3584) : (loaded g p).wf = true := by
  refine wfFrom_append (c := 0x200) (wfFrom_placeFrom 0 0 _ (le_refl _) (by simp [memSize])) ?_
    (wfFrom_placeFrom _ _ _ (by simp [base]) (by simp [base, memSize]; omega)) (by omega)
  intro q hq
  have := (placeFrom_lt 0 _ q hq).2
  simp at this
  omega

/-- What Load leaves in memory: the glyph table, the program, and 0 elsewhere (20 R72, 70 R350). -/
theorem read_loaded (g : Vector Byte 80) (p : List Byte) (a : Nat) :
    (loaded g p).read a =
      if a < glyphLen then g.toList.getD a 0
      else if base ≤ a ∧ a < base + p.length then p.getD (a - base) 0 else 0 := by
  unfold loaded
  by_cases h : a < glyphLen
  · rw [read_append_left, read_placeFrom]
    · have : a < 80 := h
      simp [h, this]
    · intro q hq hqa
      have := (placeFrom_lt base p q hq).1
      simp only [base, glyphLen] at *
      omega
  · rw [read_append, read_placeFrom]
    · simp [h]
    · intro q hq hqa
      have := (placeFrom_lt 0 _ q hq).2
      simp only [glyphLen, Vector.length_toList] at *
      omega

end Sys2Proof.Machine.Memory
end

