-- ==== Sys2Proof/Laws/State.lean ====
section
/-! SUPPORT. One lemma per field per update of the state, each true by rfl, so that no later proof unfolds a record
update; then the accessors over those updates. -/

namespace Sys2Proof.Machine.State

variable (s : State)
/-! setReg -/
@[simp] theorem setReg_v (x : Nibble) (b : Byte) : (s.setReg x b).v = s.v.set x.toNat b x.isLt := rfl
@[simp] theorem setReg_i (x : Nibble) (b : Byte) : (s.setReg x b).i = s.i := rfl
@[simp] theorem setReg_pc (x : Nibble) (b : Byte) : (s.setReg x b).pc = s.pc := rfl
@[simp] theorem setReg_sp (x : Nibble) (b : Byte) : (s.setReg x b).sp = s.sp := rfl
@[simp] theorem setReg_stack (x : Nibble) (b : Byte) : (s.setReg x b).stack = s.stack := rfl
@[simp] theorem setReg_dt (x : Nibble) (b : Byte) : (s.setReg x b).dt = s.dt := rfl
@[simp] theorem setReg_st (x : Nibble) (b : Byte) : (s.setReg x b).st = s.st := rfl
@[simp] theorem setReg_key (x : Nibble) (b : Byte) : (s.setReg x b).key = s.key := rfl
@[simp] theorem setReg_disp (x : Nibble) (b : Byte) : (s.setReg x b).disp = s.disp := rfl
@[simp] theorem setReg_mem (x : Nibble) (b : Byte) : (s.setReg x b).mem = s.mem := rfl
@[simp] theorem setReg_image (x : Nibble) (b : Byte) : (s.setReg x b).image = s.image := rfl
@[simp] theorem setReg_acc (x : Nibble) (b : Byte) : (s.setReg x b).acc = s.acc := rfl
@[simp] theorem setReg_stopReq (x : Nibble) (b : Byte) : (s.setReg x b).stopReq = s.stopReq := rfl
@[simp] theorem setReg_waiting (x : Nibble) (b : Byte) : (s.setReg x b).waiting = s.waiting := rfl
@[simp] theorem setReg_fatal (x : Nibble) (b : Byte) : (s.setReg x b).fatal = s.fatal := rfl
@[simp] theorem setReg_run (x : Nibble) (b : Byte) : (s.setReg x b).run = s.run := rfl
@[simp] theorem setReg_loaded (x : Nibble) (b : Byte) : (s.setReg x b).loaded = s.loaded := rfl
@[simp] theorem setReg_ran (x : Nibble) (b : Byte) : (s.setReg x b).ran = s.ran := rfl
@[simp] theorem setReg_debug (x : Nibble) (b : Byte) : (s.setReg x b).debug = s.debug := rfl
@[simp] theorem setReg_counter (x : Nibble) (b : Byte) : (s.setReg x b).counter = s.counter := rfl
@[simp] theorem setReg_restarts (x : Nibble) (b : Byte) : (s.setReg x b).restarts = s.restarts := rfl
@[simp] theorem setReg_params (x : Nibble) (b : Byte) : (s.setReg x b).params = s.params := rfl
@[simp] theorem setReg_draws (x : Nibble) (b : Byte) : (s.setReg x b).draws = s.draws := rfl
@[simp] theorem setReg_turns (x : Nibble) (b : Byte) : (s.setReg x b).turns = s.turns := rfl
@[simp] theorem setReg_out (x : Nibble) (b : Byte) : (s.setReg x b).out = s.out := rfl
@[simp] theorem setReg_mode (x : Nibble) (b : Byte) : (s.setReg x b).mode = s.mode := rfl

/-! setRegs -/
@[simp] theorem setRegs_v (v : Vector Byte 16) : (s.setRegs v).v = v := rfl
@[simp] theorem setRegs_i (v : Vector Byte 16) : (s.setRegs v).i = s.i := rfl
@[simp] theorem setRegs_pc (v : Vector Byte 16) : (s.setRegs v).pc = s.pc := rfl
@[simp] theorem setRegs_sp (v : Vector Byte 16) : (s.setRegs v).sp = s.sp := rfl
@[simp] theorem setRegs_stack (v : Vector Byte 16) : (s.setRegs v).stack = s.stack := rfl
@[simp] theorem setRegs_dt (v : Vector Byte 16) : (s.setRegs v).dt = s.dt := rfl
@[simp] theorem setRegs_st (v : Vector Byte 16) : (s.setRegs v).st = s.st := rfl
@[simp] theorem setRegs_key (v : Vector Byte 16) : (s.setRegs v).key = s.key := rfl
@[simp] theorem setRegs_disp (v : Vector Byte 16) : (s.setRegs v).disp = s.disp := rfl
@[simp] theorem setRegs_mem (v : Vector Byte 16) : (s.setRegs v).mem = s.mem := rfl
@[simp] theorem setRegs_image (v : Vector Byte 16) : (s.setRegs v).image = s.image := rfl
@[simp] theorem setRegs_acc (v : Vector Byte 16) : (s.setRegs v).acc = s.acc := rfl
@[simp] theorem setRegs_stopReq (v : Vector Byte 16) : (s.setRegs v).stopReq = s.stopReq := rfl
@[simp] theorem setRegs_waiting (v : Vector Byte 16) : (s.setRegs v).waiting = s.waiting := rfl
@[simp] theorem setRegs_fatal (v : Vector Byte 16) : (s.setRegs v).fatal = s.fatal := rfl
@[simp] theorem setRegs_run (v : Vector Byte 16) : (s.setRegs v).run = s.run := rfl
@[simp] theorem setRegs_loaded (v : Vector Byte 16) : (s.setRegs v).loaded = s.loaded := rfl
@[simp] theorem setRegs_ran (v : Vector Byte 16) : (s.setRegs v).ran = s.ran := rfl
@[simp] theorem setRegs_debug (v : Vector Byte 16) : (s.setRegs v).debug = s.debug := rfl
@[simp] theorem setRegs_counter (v : Vector Byte 16) : (s.setRegs v).counter = s.counter := rfl
@[simp] theorem setRegs_restarts (v : Vector Byte 16) : (s.setRegs v).restarts = s.restarts := rfl
@[simp] theorem setRegs_params (v : Vector Byte 16) : (s.setRegs v).params = s.params := rfl
@[simp] theorem setRegs_draws (v : Vector Byte 16) : (s.setRegs v).draws = s.draws := rfl
@[simp] theorem setRegs_turns (v : Vector Byte 16) : (s.setRegs v).turns = s.turns := rfl
@[simp] theorem setRegs_out (v : Vector Byte 16) : (s.setRegs v).out = s.out := rfl
@[simp] theorem setRegs_mode (v : Vector Byte 16) : (s.setRegs v).mode = s.mode := rfl

/-! setI -/
@[simp] theorem setI_v (a : Word) : (s.setI a).v = s.v := rfl
@[simp] theorem setI_i (a : Word) : (s.setI a).i = a := rfl
@[simp] theorem setI_pc (a : Word) : (s.setI a).pc = s.pc := rfl
@[simp] theorem setI_sp (a : Word) : (s.setI a).sp = s.sp := rfl
@[simp] theorem setI_stack (a : Word) : (s.setI a).stack = s.stack := rfl
@[simp] theorem setI_dt (a : Word) : (s.setI a).dt = s.dt := rfl
@[simp] theorem setI_st (a : Word) : (s.setI a).st = s.st := rfl
@[simp] theorem setI_key (a : Word) : (s.setI a).key = s.key := rfl
@[simp] theorem setI_disp (a : Word) : (s.setI a).disp = s.disp := rfl
@[simp] theorem setI_mem (a : Word) : (s.setI a).mem = s.mem := rfl
@[simp] theorem setI_image (a : Word) : (s.setI a).image = s.image := rfl
@[simp] theorem setI_acc (a : Word) : (s.setI a).acc = s.acc := rfl
@[simp] theorem setI_stopReq (a : Word) : (s.setI a).stopReq = s.stopReq := rfl
@[simp] theorem setI_waiting (a : Word) : (s.setI a).waiting = s.waiting := rfl
@[simp] theorem setI_fatal (a : Word) : (s.setI a).fatal = s.fatal := rfl
@[simp] theorem setI_run (a : Word) : (s.setI a).run = s.run := rfl
@[simp] theorem setI_loaded (a : Word) : (s.setI a).loaded = s.loaded := rfl
@[simp] theorem setI_ran (a : Word) : (s.setI a).ran = s.ran := rfl
@[simp] theorem setI_debug (a : Word) : (s.setI a).debug = s.debug := rfl
@[simp] theorem setI_counter (a : Word) : (s.setI a).counter = s.counter := rfl
@[simp] theorem setI_restarts (a : Word) : (s.setI a).restarts = s.restarts := rfl
@[simp] theorem setI_params (a : Word) : (s.setI a).params = s.params := rfl
@[simp] theorem setI_draws (a : Word) : (s.setI a).draws = s.draws := rfl
@[simp] theorem setI_turns (a : Word) : (s.setI a).turns = s.turns := rfl
@[simp] theorem setI_out (a : Word) : (s.setI a).out = s.out := rfl
@[simp] theorem setI_reg (a : Word) (y : Nibble) : (s.setI a).reg y = s.reg y := rfl
@[simp] theorem setI_mode (a : Word) : (s.setI a).mode = s.mode := rfl

/-! setPc -/
@[simp] theorem setPc_v (a : Word) : (s.setPc a).v = s.v := rfl
@[simp] theorem setPc_i (a : Word) : (s.setPc a).i = s.i := rfl
@[simp] theorem setPc_pc (a : Word) : (s.setPc a).pc = a := rfl
@[simp] theorem setPc_sp (a : Word) : (s.setPc a).sp = s.sp := rfl
@[simp] theorem setPc_stack (a : Word) : (s.setPc a).stack = s.stack := rfl
@[simp] theorem setPc_dt (a : Word) : (s.setPc a).dt = s.dt := rfl
@[simp] theorem setPc_st (a : Word) : (s.setPc a).st = s.st := rfl
@[simp] theorem setPc_key (a : Word) : (s.setPc a).key = s.key := rfl
@[simp] theorem setPc_disp (a : Word) : (s.setPc a).disp = s.disp := rfl
@[simp] theorem setPc_mem (a : Word) : (s.setPc a).mem = s.mem := rfl
@[simp] theorem setPc_image (a : Word) : (s.setPc a).image = s.image := rfl
@[simp] theorem setPc_acc (a : Word) : (s.setPc a).acc = s.acc := rfl
@[simp] theorem setPc_stopReq (a : Word) : (s.setPc a).stopReq = s.stopReq := rfl
@[simp] theorem setPc_waiting (a : Word) : (s.setPc a).waiting = s.waiting := rfl
@[simp] theorem setPc_fatal (a : Word) : (s.setPc a).fatal = s.fatal := rfl
@[simp] theorem setPc_run (a : Word) : (s.setPc a).run = s.run := rfl
@[simp] theorem setPc_loaded (a : Word) : (s.setPc a).loaded = s.loaded := rfl
@[simp] theorem setPc_ran (a : Word) : (s.setPc a).ran = s.ran := rfl
@[simp] theorem setPc_debug (a : Word) : (s.setPc a).debug = s.debug := rfl
@[simp] theorem setPc_counter (a : Word) : (s.setPc a).counter = s.counter := rfl
@[simp] theorem setPc_restarts (a : Word) : (s.setPc a).restarts = s.restarts := rfl
@[simp] theorem setPc_params (a : Word) : (s.setPc a).params = s.params := rfl
@[simp] theorem setPc_draws (a : Word) : (s.setPc a).draws = s.draws := rfl
@[simp] theorem setPc_turns (a : Word) : (s.setPc a).turns = s.turns := rfl
@[simp] theorem setPc_out (a : Word) : (s.setPc a).out = s.out := rfl
@[simp] theorem setPc_reg (a : Word) (y : Nibble) : (s.setPc a).reg y = s.reg y := rfl
@[simp] theorem setPc_mode (a : Word) : (s.setPc a).mode = s.mode := rfl

/-! advancePc -/
@[simp] theorem advancePc_v : (s.advancePc).v = s.v := rfl
@[simp] theorem advancePc_i : (s.advancePc).i = s.i := rfl
@[simp] theorem advancePc_pc : (s.advancePc).pc = s.pc + 2 := rfl
@[simp] theorem advancePc_sp : (s.advancePc).sp = s.sp := rfl
@[simp] theorem advancePc_stack : (s.advancePc).stack = s.stack := rfl
@[simp] theorem advancePc_dt : (s.advancePc).dt = s.dt := rfl
@[simp] theorem advancePc_st : (s.advancePc).st = s.st := rfl
@[simp] theorem advancePc_key : (s.advancePc).key = s.key := rfl
@[simp] theorem advancePc_disp : (s.advancePc).disp = s.disp := rfl
@[simp] theorem advancePc_mem : (s.advancePc).mem = s.mem := rfl
@[simp] theorem advancePc_image : (s.advancePc).image = s.image := rfl
@[simp] theorem advancePc_acc : (s.advancePc).acc = s.acc := rfl
@[simp] theorem advancePc_stopReq : (s.advancePc).stopReq = s.stopReq := rfl
@[simp] theorem advancePc_waiting : (s.advancePc).waiting = s.waiting := rfl
@[simp] theorem advancePc_fatal : (s.advancePc).fatal = s.fatal := rfl
@[simp] theorem advancePc_run : (s.advancePc).run = s.run := rfl
@[simp] theorem advancePc_loaded : (s.advancePc).loaded = s.loaded := rfl
@[simp] theorem advancePc_ran : (s.advancePc).ran = s.ran := rfl
@[simp] theorem advancePc_debug : (s.advancePc).debug = s.debug := rfl
@[simp] theorem advancePc_counter : (s.advancePc).counter = s.counter := rfl
@[simp] theorem advancePc_restarts : (s.advancePc).restarts = s.restarts := rfl
@[simp] theorem advancePc_params : (s.advancePc).params = s.params := rfl
@[simp] theorem advancePc_draws : (s.advancePc).draws = s.draws := rfl
@[simp] theorem advancePc_turns : (s.advancePc).turns = s.turns := rfl
@[simp] theorem advancePc_out : (s.advancePc).out = s.out := rfl
@[simp] theorem advancePc_reg (y : Nibble) : (s.advancePc).reg y = s.reg y := rfl
@[simp] theorem advancePc_mode : (s.advancePc).mode = s.mode := rfl

/-! setDt -/
@[simp] theorem setDt_v (b : Byte) : (s.setDt b).v = s.v := rfl
@[simp] theorem setDt_i (b : Byte) : (s.setDt b).i = s.i := rfl
@[simp] theorem setDt_pc (b : Byte) : (s.setDt b).pc = s.pc := rfl
@[simp] theorem setDt_sp (b : Byte) : (s.setDt b).sp = s.sp := rfl
@[simp] theorem setDt_stack (b : Byte) : (s.setDt b).stack = s.stack := rfl
@[simp] theorem setDt_dt (b : Byte) : (s.setDt b).dt = b := rfl
@[simp] theorem setDt_st (b : Byte) : (s.setDt b).st = s.st := rfl
@[simp] theorem setDt_key (b : Byte) : (s.setDt b).key = s.key := rfl
@[simp] theorem setDt_disp (b : Byte) : (s.setDt b).disp = s.disp := rfl
@[simp] theorem setDt_mem (b : Byte) : (s.setDt b).mem = s.mem := rfl
@[simp] theorem setDt_image (b : Byte) : (s.setDt b).image = s.image := rfl
@[simp] theorem setDt_acc (b : Byte) : (s.setDt b).acc = s.acc := rfl
@[simp] theorem setDt_stopReq (b : Byte) : (s.setDt b).stopReq = s.stopReq := rfl
@[simp] theorem setDt_waiting (b : Byte) : (s.setDt b).waiting = s.waiting := rfl
@[simp] theorem setDt_fatal (b : Byte) : (s.setDt b).fatal = s.fatal := rfl
@[simp] theorem setDt_run (b : Byte) : (s.setDt b).run = s.run := rfl
@[simp] theorem setDt_loaded (b : Byte) : (s.setDt b).loaded = s.loaded := rfl
@[simp] theorem setDt_ran (b : Byte) : (s.setDt b).ran = s.ran := rfl
@[simp] theorem setDt_debug (b : Byte) : (s.setDt b).debug = s.debug := rfl
@[simp] theorem setDt_counter (b : Byte) : (s.setDt b).counter = s.counter := rfl
@[simp] theorem setDt_restarts (b : Byte) : (s.setDt b).restarts = s.restarts := rfl
@[simp] theorem setDt_params (b : Byte) : (s.setDt b).params = s.params := rfl
@[simp] theorem setDt_draws (b : Byte) : (s.setDt b).draws = s.draws := rfl
@[simp] theorem setDt_turns (b : Byte) : (s.setDt b).turns = s.turns := rfl
@[simp] theorem setDt_out (b : Byte) : (s.setDt b).out = s.out := rfl
@[simp] theorem setDt_reg (b : Byte) (y : Nibble) : (s.setDt b).reg y = s.reg y := rfl
@[simp] theorem setDt_mode (b : Byte) : (s.setDt b).mode = s.mode := rfl

/-! setSt -/
@[simp] theorem setSt_v (b : Byte) : (s.setSt b).v = s.v := rfl
@[simp] theorem setSt_i (b : Byte) : (s.setSt b).i = s.i := rfl
@[simp] theorem setSt_pc (b : Byte) : (s.setSt b).pc = s.pc := rfl
@[simp] theorem setSt_sp (b : Byte) : (s.setSt b).sp = s.sp := rfl
@[simp] theorem setSt_stack (b : Byte) : (s.setSt b).stack = s.stack := rfl
@[simp] theorem setSt_dt (b : Byte) : (s.setSt b).dt = s.dt := rfl
@[simp] theorem setSt_st (b : Byte) : (s.setSt b).st = b := rfl
@[simp] theorem setSt_key (b : Byte) : (s.setSt b).key = s.key := rfl
@[simp] theorem setSt_disp (b : Byte) : (s.setSt b).disp = s.disp := rfl
@[simp] theorem setSt_mem (b : Byte) : (s.setSt b).mem = s.mem := rfl
@[simp] theorem setSt_image (b : Byte) : (s.setSt b).image = s.image := rfl
@[simp] theorem setSt_acc (b : Byte) : (s.setSt b).acc = s.acc := rfl
@[simp] theorem setSt_stopReq (b : Byte) : (s.setSt b).stopReq = s.stopReq := rfl
@[simp] theorem setSt_waiting (b : Byte) : (s.setSt b).waiting = s.waiting := rfl
@[simp] theorem setSt_fatal (b : Byte) : (s.setSt b).fatal = s.fatal := rfl
@[simp] theorem setSt_run (b : Byte) : (s.setSt b).run = s.run := rfl
@[simp] theorem setSt_loaded (b : Byte) : (s.setSt b).loaded = s.loaded := rfl
@[simp] theorem setSt_ran (b : Byte) : (s.setSt b).ran = s.ran := rfl
@[simp] theorem setSt_debug (b : Byte) : (s.setSt b).debug = s.debug := rfl
@[simp] theorem setSt_counter (b : Byte) : (s.setSt b).counter = s.counter := rfl
@[simp] theorem setSt_restarts (b : Byte) : (s.setSt b).restarts = s.restarts := rfl
@[simp] theorem setSt_params (b : Byte) : (s.setSt b).params = s.params := rfl
@[simp] theorem setSt_draws (b : Byte) : (s.setSt b).draws = s.draws := rfl
@[simp] theorem setSt_turns (b : Byte) : (s.setSt b).turns = s.turns := rfl
@[simp] theorem setSt_out (b : Byte) : (s.setSt b).out = s.out := rfl
@[simp] theorem setSt_reg (b : Byte) (y : Nibble) : (s.setSt b).reg y = s.reg y := rfl
@[simp] theorem setSt_mode (b : Byte) : (s.setSt b).mode = s.mode := rfl

/-! setMem -/
@[simp] theorem setMem_v (m : Memory) : (s.setMem m).v = s.v := rfl
@[simp] theorem setMem_i (m : Memory) : (s.setMem m).i = s.i := rfl
@[simp] theorem setMem_pc (m : Memory) : (s.setMem m).pc = s.pc := rfl
@[simp] theorem setMem_sp (m : Memory) : (s.setMem m).sp = s.sp := rfl
@[simp] theorem setMem_stack (m : Memory) : (s.setMem m).stack = s.stack := rfl
@[simp] theorem setMem_dt (m : Memory) : (s.setMem m).dt = s.dt := rfl
@[simp] theorem setMem_st (m : Memory) : (s.setMem m).st = s.st := rfl
@[simp] theorem setMem_key (m : Memory) : (s.setMem m).key = s.key := rfl
@[simp] theorem setMem_disp (m : Memory) : (s.setMem m).disp = s.disp := rfl
@[simp] theorem setMem_mem (m : Memory) : (s.setMem m).mem = m := rfl
@[simp] theorem setMem_image (m : Memory) : (s.setMem m).image = s.image := rfl
@[simp] theorem setMem_acc (m : Memory) : (s.setMem m).acc = s.acc := rfl
@[simp] theorem setMem_stopReq (m : Memory) : (s.setMem m).stopReq = s.stopReq := rfl
@[simp] theorem setMem_waiting (m : Memory) : (s.setMem m).waiting = s.waiting := rfl
@[simp] theorem setMem_fatal (m : Memory) : (s.setMem m).fatal = s.fatal := rfl
@[simp] theorem setMem_run (m : Memory) : (s.setMem m).run = s.run := rfl
@[simp] theorem setMem_loaded (m : Memory) : (s.setMem m).loaded = s.loaded := rfl
@[simp] theorem setMem_ran (m : Memory) : (s.setMem m).ran = s.ran := rfl
@[simp] theorem setMem_debug (m : Memory) : (s.setMem m).debug = s.debug := rfl
@[simp] theorem setMem_counter (m : Memory) : (s.setMem m).counter = s.counter := rfl
@[simp] theorem setMem_restarts (m : Memory) : (s.setMem m).restarts = s.restarts := rfl
@[simp] theorem setMem_params (m : Memory) : (s.setMem m).params = s.params := rfl
@[simp] theorem setMem_draws (m : Memory) : (s.setMem m).draws = s.draws := rfl
@[simp] theorem setMem_turns (m : Memory) : (s.setMem m).turns = s.turns := rfl
@[simp] theorem setMem_out (m : Memory) : (s.setMem m).out = s.out := rfl
@[simp] theorem setMem_reg (m : Memory) (y : Nibble) : (s.setMem m).reg y = s.reg y := rfl
@[simp] theorem setMem_mode (m : Memory) : (s.setMem m).mode = s.mode := rfl

/-! setWaiting -/
@[simp] theorem setWaiting_v (w : Option Wait) : (s.setWaiting w).v = s.v := rfl
@[simp] theorem setWaiting_i (w : Option Wait) : (s.setWaiting w).i = s.i := rfl
@[simp] theorem setWaiting_pc (w : Option Wait) : (s.setWaiting w).pc = s.pc := rfl
@[simp] theorem setWaiting_sp (w : Option Wait) : (s.setWaiting w).sp = s.sp := rfl
@[simp] theorem setWaiting_stack (w : Option Wait) : (s.setWaiting w).stack = s.stack := rfl
@[simp] theorem setWaiting_dt (w : Option Wait) : (s.setWaiting w).dt = s.dt := rfl
@[simp] theorem setWaiting_st (w : Option Wait) : (s.setWaiting w).st = s.st := rfl
@[simp] theorem setWaiting_key (w : Option Wait) : (s.setWaiting w).key = s.key := rfl
@[simp] theorem setWaiting_disp (w : Option Wait) : (s.setWaiting w).disp = s.disp := rfl
@[simp] theorem setWaiting_mem (w : Option Wait) : (s.setWaiting w).mem = s.mem := rfl
@[simp] theorem setWaiting_image (w : Option Wait) : (s.setWaiting w).image = s.image := rfl
@[simp] theorem setWaiting_acc (w : Option Wait) : (s.setWaiting w).acc = s.acc := rfl
@[simp] theorem setWaiting_stopReq (w : Option Wait) : (s.setWaiting w).stopReq = s.stopReq := rfl
@[simp] theorem setWaiting_waiting (w : Option Wait) : (s.setWaiting w).waiting = w := rfl
@[simp] theorem setWaiting_fatal (w : Option Wait) : (s.setWaiting w).fatal = s.fatal := rfl
@[simp] theorem setWaiting_run (w : Option Wait) : (s.setWaiting w).run = s.run := rfl
@[simp] theorem setWaiting_loaded (w : Option Wait) : (s.setWaiting w).loaded = s.loaded := rfl
@[simp] theorem setWaiting_ran (w : Option Wait) : (s.setWaiting w).ran = s.ran := rfl
@[simp] theorem setWaiting_debug (w : Option Wait) : (s.setWaiting w).debug = s.debug := rfl
@[simp] theorem setWaiting_counter (w : Option Wait) : (s.setWaiting w).counter = s.counter := rfl
@[simp] theorem setWaiting_restarts (w : Option Wait) : (s.setWaiting w).restarts = s.restarts := rfl
@[simp] theorem setWaiting_params (w : Option Wait) : (s.setWaiting w).params = s.params := rfl
@[simp] theorem setWaiting_draws (w : Option Wait) : (s.setWaiting w).draws = s.draws := rfl
@[simp] theorem setWaiting_turns (w : Option Wait) : (s.setWaiting w).turns = s.turns := rfl
@[simp] theorem setWaiting_out (w : Option Wait) : (s.setWaiting w).out = s.out := rfl
@[simp] theorem setWaiting_reg (w : Option Wait) (y : Nibble) : (s.setWaiting w).reg y = s.reg y := rfl
@[simp] theorem setWaiting_mode (w : Option Wait) : (s.setWaiting w).mode = s.mode := rfl

/-! countDraw -/
@[simp] theorem countDraw_v : (s.countDraw).v = s.v := rfl
@[simp] theorem countDraw_i : (s.countDraw).i = s.i := rfl
@[simp] theorem countDraw_pc : (s.countDraw).pc = s.pc := rfl
@[simp] theorem countDraw_sp : (s.countDraw).sp = s.sp := rfl
@[simp] theorem countDraw_stack : (s.countDraw).stack = s.stack := rfl
@[simp] theorem countDraw_dt : (s.countDraw).dt = s.dt := rfl
@[simp] theorem countDraw_st : (s.countDraw).st = s.st := rfl
@[simp] theorem countDraw_key : (s.countDraw).key = s.key := rfl
@[simp] theorem countDraw_disp : (s.countDraw).disp = s.disp := rfl
@[simp] theorem countDraw_mem : (s.countDraw).mem = s.mem := rfl
@[simp] theorem countDraw_image : (s.countDraw).image = s.image := rfl
@[simp] theorem countDraw_acc : (s.countDraw).acc = s.acc := rfl
@[simp] theorem countDraw_stopReq : (s.countDraw).stopReq = s.stopReq := rfl
@[simp] theorem countDraw_waiting : (s.countDraw).waiting = s.waiting := rfl
@[simp] theorem countDraw_fatal : (s.countDraw).fatal = s.fatal := rfl
@[simp] theorem countDraw_run : (s.countDraw).run = s.run := rfl
@[simp] theorem countDraw_loaded : (s.countDraw).loaded = s.loaded := rfl
@[simp] theorem countDraw_ran : (s.countDraw).ran = s.ran := rfl
@[simp] theorem countDraw_debug : (s.countDraw).debug = s.debug := rfl
@[simp] theorem countDraw_counter : (s.countDraw).counter = s.counter := rfl
@[simp] theorem countDraw_restarts : (s.countDraw).restarts = s.restarts := rfl
@[simp] theorem countDraw_params : (s.countDraw).params = s.params := rfl
@[simp] theorem countDraw_draws : (s.countDraw).draws = s.draws + 1 := rfl
@[simp] theorem countDraw_turns : (s.countDraw).turns = s.turns := rfl
@[simp] theorem countDraw_out : (s.countDraw).out = s.out := rfl
@[simp] theorem countDraw_reg (y : Nibble) : (s.countDraw).reg y = s.reg y := rfl
@[simp] theorem countDraw_mode : (s.countDraw).mode = s.mode := rfl

/-! push -/
@[simp] theorem push_v (a : Word) (h : s.sp.val < 16) : (s.push a h).v = s.v := rfl
@[simp] theorem push_i (a : Word) (h : s.sp.val < 16) : (s.push a h).i = s.i := rfl
@[simp] theorem push_pc (a : Word) (h : s.sp.val < 16) : (s.push a h).pc = s.pc := rfl
@[simp] theorem push_sp (a : Word) (h : s.sp.val < 16) : (s.push a h).sp = ⟨s.sp.val + 1, Nat.succ_lt_succ h⟩ := rfl
@[simp] theorem push_stack (a : Word) (h : s.sp.val < 16) : (s.push a h).stack = s.stack.set s.sp.val a h := rfl
@[simp] theorem push_dt (a : Word) (h : s.sp.val < 16) : (s.push a h).dt = s.dt := rfl
@[simp] theorem push_st (a : Word) (h : s.sp.val < 16) : (s.push a h).st = s.st := rfl
@[simp] theorem push_key (a : Word) (h : s.sp.val < 16) : (s.push a h).key = s.key := rfl
@[simp] theorem push_disp (a : Word) (h : s.sp.val < 16) : (s.push a h).disp = s.disp := rfl
@[simp] theorem push_mem (a : Word) (h : s.sp.val < 16) : (s.push a h).mem = s.mem := rfl
@[simp] theorem push_image (a : Word) (h : s.sp.val < 16) : (s.push a h).image = s.image := rfl
@[simp] theorem push_acc (a : Word) (h : s.sp.val < 16) : (s.push a h).acc = s.acc := rfl
@[simp] theorem push_stopReq (a : Word) (h : s.sp.val < 16) : (s.push a h).stopReq = s.stopReq := rfl
@[simp] theorem push_waiting (a : Word) (h : s.sp.val < 16) : (s.push a h).waiting = s.waiting := rfl
@[simp] theorem push_fatal (a : Word) (h : s.sp.val < 16) : (s.push a h).fatal = s.fatal := rfl
@[simp] theorem push_run (a : Word) (h : s.sp.val < 16) : (s.push a h).run = s.run := rfl
@[simp] theorem push_loaded (a : Word) (h : s.sp.val < 16) : (s.push a h).loaded = s.loaded := rfl
@[simp] theorem push_ran (a : Word) (h : s.sp.val < 16) : (s.push a h).ran = s.ran := rfl
@[simp] theorem push_debug (a : Word) (h : s.sp.val < 16) : (s.push a h).debug = s.debug := rfl
@[simp] theorem push_counter (a : Word) (h : s.sp.val < 16) : (s.push a h).counter = s.counter := rfl
@[simp] theorem push_restarts (a : Word) (h : s.sp.val < 16) : (s.push a h).restarts = s.restarts := rfl
@[simp] theorem push_params (a : Word) (h : s.sp.val < 16) : (s.push a h).params = s.params := rfl
@[simp] theorem push_draws (a : Word) (h : s.sp.val < 16) : (s.push a h).draws = s.draws := rfl
@[simp] theorem push_turns (a : Word) (h : s.sp.val < 16) : (s.push a h).turns = s.turns := rfl
@[simp] theorem push_out (a : Word) (h : s.sp.val < 16) : (s.push a h).out = s.out := rfl
@[simp] theorem push_reg (a : Word) (h : s.sp.val < 16) (y : Nibble) : (s.push a h).reg y = s.reg y := rfl
@[simp] theorem push_mode (a : Word) (h : s.sp.val < 16) : (s.push a h).mode = s.mode := rfl

/-! dropTop -/
@[simp] theorem dropTop_v : (s.dropTop).v = s.v := rfl
@[simp] theorem dropTop_i : (s.dropTop).i = s.i := rfl
@[simp] theorem dropTop_pc : (s.dropTop).pc = s.pc := rfl
@[simp] theorem dropTop_sp : (s.dropTop).sp = ⟨s.sp.val - 1, Nat.lt_of_le_of_lt (Nat.sub_le _ _) s.sp.isLt⟩ := rfl
@[simp] theorem dropTop_stack : (s.dropTop).stack = s.stack := rfl
@[simp] theorem dropTop_dt : (s.dropTop).dt = s.dt := rfl
@[simp] theorem dropTop_st : (s.dropTop).st = s.st := rfl
@[simp] theorem dropTop_key : (s.dropTop).key = s.key := rfl
@[simp] theorem dropTop_disp : (s.dropTop).disp = s.disp := rfl
@[simp] theorem dropTop_mem : (s.dropTop).mem = s.mem := rfl
@[simp] theorem dropTop_image : (s.dropTop).image = s.image := rfl
@[simp] theorem dropTop_acc : (s.dropTop).acc = s.acc := rfl
@[simp] theorem dropTop_stopReq : (s.dropTop).stopReq = s.stopReq := rfl
@[simp] theorem dropTop_waiting : (s.dropTop).waiting = s.waiting := rfl
@[simp] theorem dropTop_fatal : (s.dropTop).fatal = s.fatal := rfl
@[simp] theorem dropTop_run : (s.dropTop).run = s.run := rfl
@[simp] theorem dropTop_loaded : (s.dropTop).loaded = s.loaded := rfl
@[simp] theorem dropTop_ran : (s.dropTop).ran = s.ran := rfl
@[simp] theorem dropTop_debug : (s.dropTop).debug = s.debug := rfl
@[simp] theorem dropTop_counter : (s.dropTop).counter = s.counter := rfl
@[simp] theorem dropTop_restarts : (s.dropTop).restarts = s.restarts := rfl
@[simp] theorem dropTop_params : (s.dropTop).params = s.params := rfl
@[simp] theorem dropTop_draws : (s.dropTop).draws = s.draws := rfl
@[simp] theorem dropTop_turns : (s.dropTop).turns = s.turns := rfl
@[simp] theorem dropTop_out : (s.dropTop).out = s.out := rfl
@[simp] theorem dropTop_reg (y : Nibble) : (s.dropTop).reg y = s.reg y := rfl
@[simp] theorem dropTop_mode : (s.dropTop).mode = s.mode := rfl

/-! setDisp -/
@[simp] theorem setDisp_v (d : Surface) : (s.setDisp d).v = s.v := rfl
@[simp] theorem setDisp_i (d : Surface) : (s.setDisp d).i = s.i := rfl
@[simp] theorem setDisp_pc (d : Surface) : (s.setDisp d).pc = s.pc := rfl
@[simp] theorem setDisp_sp (d : Surface) : (s.setDisp d).sp = s.sp := rfl
@[simp] theorem setDisp_stack (d : Surface) : (s.setDisp d).stack = s.stack := rfl
@[simp] theorem setDisp_dt (d : Surface) : (s.setDisp d).dt = s.dt := rfl
@[simp] theorem setDisp_st (d : Surface) : (s.setDisp d).st = s.st := rfl
@[simp] theorem setDisp_key (d : Surface) : (s.setDisp d).key = s.key := rfl
@[simp] theorem setDisp_disp (d : Surface) : (s.setDisp d).disp = d := rfl
@[simp] theorem setDisp_mem (d : Surface) : (s.setDisp d).mem = s.mem := rfl
@[simp] theorem setDisp_image (d : Surface) : (s.setDisp d).image = s.image := rfl
@[simp] theorem setDisp_acc (d : Surface) : (s.setDisp d).acc = s.acc := rfl
@[simp] theorem setDisp_stopReq (d : Surface) : (s.setDisp d).stopReq = s.stopReq := rfl
@[simp] theorem setDisp_waiting (d : Surface) : (s.setDisp d).waiting = s.waiting := rfl
@[simp] theorem setDisp_fatal (d : Surface) : (s.setDisp d).fatal = s.fatal := rfl
@[simp] theorem setDisp_run (d : Surface) : (s.setDisp d).run = s.run := rfl
@[simp] theorem setDisp_loaded (d : Surface) : (s.setDisp d).loaded = s.loaded := rfl
@[simp] theorem setDisp_ran (d : Surface) : (s.setDisp d).ran = s.ran := rfl
@[simp] theorem setDisp_debug (d : Surface) : (s.setDisp d).debug = s.debug := rfl
@[simp] theorem setDisp_counter (d : Surface) : (s.setDisp d).counter = s.counter := rfl
@[simp] theorem setDisp_restarts (d : Surface) : (s.setDisp d).restarts = s.restarts := rfl
@[simp] theorem setDisp_params (d : Surface) : (s.setDisp d).params = s.params := rfl
@[simp] theorem setDisp_draws (d : Surface) : (s.setDisp d).draws = s.draws := rfl
@[simp] theorem setDisp_turns (d : Surface) : (s.setDisp d).turns = s.turns := rfl
@[simp] theorem setDisp_out (d : Surface) : (s.setDisp d).out = s.out := rfl
@[simp] theorem setDisp_reg (d : Surface) (y : Nibble) : (s.setDisp d).reg y = s.reg y := rfl

/-! emit -/
@[simp] theorem emit_v (e : OutEvent) : (s.emit e).v = s.v := rfl
@[simp] theorem emit_i (e : OutEvent) : (s.emit e).i = s.i := rfl
@[simp] theorem emit_pc (e : OutEvent) : (s.emit e).pc = s.pc := rfl
@[simp] theorem emit_sp (e : OutEvent) : (s.emit e).sp = s.sp := rfl
@[simp] theorem emit_stack (e : OutEvent) : (s.emit e).stack = s.stack := rfl
@[simp] theorem emit_dt (e : OutEvent) : (s.emit e).dt = s.dt := rfl
@[simp] theorem emit_st (e : OutEvent) : (s.emit e).st = s.st := rfl
@[simp] theorem emit_key (e : OutEvent) : (s.emit e).key = s.key := rfl
@[simp] theorem emit_disp (e : OutEvent) : (s.emit e).disp = s.disp := rfl
@[simp] theorem emit_mem (e : OutEvent) : (s.emit e).mem = s.mem := rfl
@[simp] theorem emit_image (e : OutEvent) : (s.emit e).image = s.image := rfl
@[simp] theorem emit_acc (e : OutEvent) : (s.emit e).acc = s.acc := rfl
@[simp] theorem emit_stopReq (e : OutEvent) : (s.emit e).stopReq = s.stopReq := rfl
@[simp] theorem emit_waiting (e : OutEvent) : (s.emit e).waiting = s.waiting := rfl
@[simp] theorem emit_fatal (e : OutEvent) : (s.emit e).fatal = s.fatal := rfl
@[simp] theorem emit_run (e : OutEvent) : (s.emit e).run = s.run := rfl
@[simp] theorem emit_loaded (e : OutEvent) : (s.emit e).loaded = s.loaded := rfl
@[simp] theorem emit_ran (e : OutEvent) : (s.emit e).ran = s.ran := rfl
@[simp] theorem emit_debug (e : OutEvent) : (s.emit e).debug = s.debug := rfl
@[simp] theorem emit_counter (e : OutEvent) : (s.emit e).counter = s.counter := rfl
@[simp] theorem emit_restarts (e : OutEvent) : (s.emit e).restarts = s.restarts := rfl
@[simp] theorem emit_params (e : OutEvent) : (s.emit e).params = s.params := rfl
@[simp] theorem emit_draws (e : OutEvent) : (s.emit e).draws = s.draws := rfl
@[simp] theorem emit_turns (e : OutEvent) : (s.emit e).turns = s.turns := rfl
@[simp] theorem emit_out (e : OutEvent) : (s.emit e).out = e :: s.out := rfl
@[simp] theorem emit_reg (e : OutEvent) (y : Nibble) : (s.emit e).reg y = s.reg y := rfl
@[simp] theorem emit_mode (e : OutEvent) : (s.emit e).mode = s.mode := rfl

/-! diagUnsupported -/
@[simp] theorem diagUnsupported_v (j : Instr) : (s.diagUnsupported j).v = s.v := rfl
@[simp] theorem diagUnsupported_i (j : Instr) : (s.diagUnsupported j).i = s.i := rfl
@[simp] theorem diagUnsupported_pc (j : Instr) : (s.diagUnsupported j).pc = s.pc := rfl
@[simp] theorem diagUnsupported_sp (j : Instr) : (s.diagUnsupported j).sp = s.sp := rfl
@[simp] theorem diagUnsupported_stack (j : Instr) : (s.diagUnsupported j).stack = s.stack := rfl
@[simp] theorem diagUnsupported_dt (j : Instr) : (s.diagUnsupported j).dt = s.dt := rfl
@[simp] theorem diagUnsupported_st (j : Instr) : (s.diagUnsupported j).st = s.st := rfl
@[simp] theorem diagUnsupported_key (j : Instr) : (s.diagUnsupported j).key = s.key := rfl
@[simp] theorem diagUnsupported_disp (j : Instr) : (s.diagUnsupported j).disp = s.disp := rfl
@[simp] theorem diagUnsupported_mem (j : Instr) : (s.diagUnsupported j).mem = s.mem := rfl
@[simp] theorem diagUnsupported_image (j : Instr) : (s.diagUnsupported j).image = s.image := rfl
@[simp] theorem diagUnsupported_acc (j : Instr) : (s.diagUnsupported j).acc = s.acc := rfl
@[simp] theorem diagUnsupported_stopReq (j : Instr) : (s.diagUnsupported j).stopReq = s.stopReq := rfl
@[simp] theorem diagUnsupported_waiting (j : Instr) : (s.diagUnsupported j).waiting = s.waiting := rfl
@[simp] theorem diagUnsupported_fatal (j : Instr) : (s.diagUnsupported j).fatal = s.fatal := rfl
@[simp] theorem diagUnsupported_run (j : Instr) : (s.diagUnsupported j).run = s.run := rfl
@[simp] theorem diagUnsupported_loaded (j : Instr) : (s.diagUnsupported j).loaded = s.loaded := rfl
@[simp] theorem diagUnsupported_ran (j : Instr) : (s.diagUnsupported j).ran = s.ran := rfl
@[simp] theorem diagUnsupported_debug (j : Instr) : (s.diagUnsupported j).debug = s.debug := rfl
@[simp] theorem diagUnsupported_counter (j : Instr) : (s.diagUnsupported j).counter = s.counter := rfl
@[simp] theorem diagUnsupported_restarts (j : Instr) : (s.diagUnsupported j).restarts = s.restarts := rfl
@[simp] theorem diagUnsupported_params (j : Instr) : (s.diagUnsupported j).params = s.params := rfl
@[simp] theorem diagUnsupported_draws (j : Instr) : (s.diagUnsupported j).draws = s.draws := rfl
@[simp] theorem diagUnsupported_turns (j : Instr) : (s.diagUnsupported j).turns = s.turns := rfl
@[simp] theorem diagUnsupported_out (j : Instr) : (s.diagUnsupported j).out = .diag .unsupported (encode j) s.instrAddr :: s.out := rfl
@[simp] theorem diagUnsupported_reg (j : Instr) (y : Nibble) : (s.diagUnsupported j).reg y = s.reg y := rfl
@[simp] theorem diagUnsupported_mode (j : Instr) : (s.diagUnsupported j).mode = s.mode := rfl

/-! diagUnknown -/
@[simp] theorem diagUnknown_v (w a : Word) : (s.diagUnknown w a).v = s.v := rfl
@[simp] theorem diagUnknown_i (w a : Word) : (s.diagUnknown w a).i = s.i := rfl
@[simp] theorem diagUnknown_pc (w a : Word) : (s.diagUnknown w a).pc = s.pc := rfl
@[simp] theorem diagUnknown_sp (w a : Word) : (s.diagUnknown w a).sp = s.sp := rfl
@[simp] theorem diagUnknown_stack (w a : Word) : (s.diagUnknown w a).stack = s.stack := rfl
@[simp] theorem diagUnknown_dt (w a : Word) : (s.diagUnknown w a).dt = s.dt := rfl
@[simp] theorem diagUnknown_st (w a : Word) : (s.diagUnknown w a).st = s.st := rfl
@[simp] theorem diagUnknown_key (w a : Word) : (s.diagUnknown w a).key = s.key := rfl
@[simp] theorem diagUnknown_disp (w a : Word) : (s.diagUnknown w a).disp = s.disp := rfl
@[simp] theorem diagUnknown_mem (w a : Word) : (s.diagUnknown w a).mem = s.mem := rfl
@[simp] theorem diagUnknown_image (w a : Word) : (s.diagUnknown w a).image = s.image := rfl
@[simp] theorem diagUnknown_acc (w a : Word) : (s.diagUnknown w a).acc = s.acc := rfl
@[simp] theorem diagUnknown_stopReq (w a : Word) : (s.diagUnknown w a).stopReq = s.stopReq := rfl
@[simp] theorem diagUnknown_waiting (w a : Word) : (s.diagUnknown w a).waiting = s.waiting := rfl
@[simp] theorem diagUnknown_fatal (w a : Word) : (s.diagUnknown w a).fatal = s.fatal := rfl
@[simp] theorem diagUnknown_run (w a : Word) : (s.diagUnknown w a).run = s.run := rfl
@[simp] theorem diagUnknown_loaded (w a : Word) : (s.diagUnknown w a).loaded = s.loaded := rfl
@[simp] theorem diagUnknown_ran (w a : Word) : (s.diagUnknown w a).ran = s.ran := rfl
@[simp] theorem diagUnknown_debug (w a : Word) : (s.diagUnknown w a).debug = s.debug := rfl
@[simp] theorem diagUnknown_counter (w a : Word) : (s.diagUnknown w a).counter = s.counter := rfl
@[simp] theorem diagUnknown_restarts (w a : Word) : (s.diagUnknown w a).restarts = s.restarts := rfl
@[simp] theorem diagUnknown_params (w a : Word) : (s.diagUnknown w a).params = s.params := rfl
@[simp] theorem diagUnknown_draws (w a : Word) : (s.diagUnknown w a).draws = s.draws := rfl
@[simp] theorem diagUnknown_turns (w a : Word) : (s.diagUnknown w a).turns = s.turns := rfl
@[simp] theorem diagUnknown_out (w a : Word) : (s.diagUnknown w a).out = .diag .unknown w a :: s.out := rfl
@[simp] theorem diagUnknown_reg (w a : Word) (y : Nibble) : (s.diagUnknown w a).reg y = s.reg y := rfl
@[simp] theorem diagUnknown_mode (w a : Word) : (s.diagUnknown w a).mode = s.mode := rfl

/-! raiseFatal -/
@[simp] theorem raiseFatal_v (k : FatalKind) (a : Word) (w : Option Word) (n : Option Nat) : (s.raiseFatal k a w n).v = s.v := rfl
@[simp] theorem raiseFatal_i (k : FatalKind) (a : Word) (w : Option Word) (n : Option Nat) : (s.raiseFatal k a w n).i = s.i := rfl
@[simp] theorem raiseFatal_pc (k : FatalKind) (a : Word) (w : Option Word) (n : Option Nat) : (s.raiseFatal k a w n).pc = a := rfl
@[simp] theorem raiseFatal_sp (k : FatalKind) (a : Word) (w : Option Word) (n : Option Nat) : (s.raiseFatal k a w n).sp = s.sp := rfl
@[simp] theorem raiseFatal_stack (k : FatalKind) (a : Word) (w : Option Word) (n : Option Nat) : (s.raiseFatal k a w n).stack = s.stack := rfl
@[simp] theorem raiseFatal_dt (k : FatalKind) (a : Word) (w : Option Word) (n : Option Nat) : (s.raiseFatal k a w n).dt = s.dt := rfl
@[simp] theorem raiseFatal_st (k : FatalKind) (a : Word) (w : Option Word) (n : Option Nat) : (s.raiseFatal k a w n).st = s.st := rfl
@[simp] theorem raiseFatal_key (k : FatalKind) (a : Word) (w : Option Word) (n : Option Nat) : (s.raiseFatal k a w n).key = s.key := rfl
@[simp] theorem raiseFatal_disp (k : FatalKind) (a : Word) (w : Option Word) (n : Option Nat) : (s.raiseFatal k a w n).disp = s.disp := rfl
@[simp] theorem raiseFatal_mem (k : FatalKind) (a : Word) (w : Option Word) (n : Option Nat) : (s.raiseFatal k a w n).mem = s.mem := rfl
@[simp] theorem raiseFatal_image (k : FatalKind) (a : Word) (w : Option Word) (n : Option Nat) : (s.raiseFatal k a w n).image = s.image := rfl
@[simp] theorem raiseFatal_acc (k : FatalKind) (a : Word) (w : Option Word) (n : Option Nat) : (s.raiseFatal k a w n).acc = s.acc := rfl
@[simp] theorem raiseFatal_stopReq (k : FatalKind) (a : Word) (w : Option Word) (n : Option Nat) : (s.raiseFatal k a w n).stopReq = false := rfl
@[simp] theorem raiseFatal_waiting (k : FatalKind) (a : Word) (w : Option Word) (n : Option Nat) : (s.raiseFatal k a w n).waiting = s.waiting := rfl
@[simp] theorem raiseFatal_fatal (k : FatalKind) (a : Word) (w : Option Word) (n : Option Nat) : (s.raiseFatal k a w n).fatal = some ⟨k, a, w, n⟩ := rfl
@[simp] theorem raiseFatal_run (k : FatalKind) (a : Word) (w : Option Word) (n : Option Nat) : (s.raiseFatal k a w n).run = .stopped := rfl
@[simp] theorem raiseFatal_loaded (k : FatalKind) (a : Word) (w : Option Word) (n : Option Nat) : (s.raiseFatal k a w n).loaded = s.loaded := rfl
@[simp] theorem raiseFatal_ran (k : FatalKind) (a : Word) (w : Option Word) (n : Option Nat) : (s.raiseFatal k a w n).ran = s.ran := rfl
@[simp] theorem raiseFatal_debug (k : FatalKind) (a : Word) (w : Option Word) (n : Option Nat) : (s.raiseFatal k a w n).debug = s.debug := rfl
@[simp] theorem raiseFatal_counter (k : FatalKind) (a : Word) (w : Option Word) (n : Option Nat) : (s.raiseFatal k a w n).counter = s.counter := rfl
@[simp] theorem raiseFatal_restarts (k : FatalKind) (a : Word) (w : Option Word) (n : Option Nat) : (s.raiseFatal k a w n).restarts = s.restarts := rfl
@[simp] theorem raiseFatal_params (k : FatalKind) (a : Word) (w : Option Word) (n : Option Nat) : (s.raiseFatal k a w n).params = s.params := rfl
@[simp] theorem raiseFatal_draws (k : FatalKind) (a : Word) (w : Option Word) (n : Option Nat) : (s.raiseFatal k a w n).draws = s.draws := rfl
@[simp] theorem raiseFatal_turns (k : FatalKind) (a : Word) (w : Option Word) (n : Option Nat) : (s.raiseFatal k a w n).turns = s.turns := rfl
@[simp] theorem raiseFatal_out (k : FatalKind) (a : Word) (w : Option Word) (n : Option Nat) : (s.raiseFatal k a w n).out = .fatalReport ⟨k, a, w, n⟩ :: s.out := rfl
@[simp] theorem raiseFatal_reg (k : FatalKind) (a : Word) (w : Option Word) (n : Option Nat) (y : Nibble) : (s.raiseFatal k a w n).reg y = s.reg y := rfl
@[simp] theorem raiseFatal_mode (k : FatalKind) (a : Word) (w : Option Word) (n : Option Nat) : (s.raiseFatal k a w n).mode = s.mode := rfl

/-! raiseIn -/
@[simp] theorem raiseIn_v (j : Instr) (k : FatalKind) (n : Option Nat) : (s.raiseIn j k n).v = s.v := rfl
@[simp] theorem raiseIn_i (j : Instr) (k : FatalKind) (n : Option Nat) : (s.raiseIn j k n).i = s.i := rfl
@[simp] theorem raiseIn_pc (j : Instr) (k : FatalKind) (n : Option Nat) : (s.raiseIn j k n).pc = s.instrAddr := rfl
@[simp] theorem raiseIn_sp (j : Instr) (k : FatalKind) (n : Option Nat) : (s.raiseIn j k n).sp = s.sp := rfl
@[simp] theorem raiseIn_stack (j : Instr) (k : FatalKind) (n : Option Nat) : (s.raiseIn j k n).stack = s.stack := rfl
@[simp] theorem raiseIn_dt (j : Instr) (k : FatalKind) (n : Option Nat) : (s.raiseIn j k n).dt = s.dt := rfl
@[simp] theorem raiseIn_st (j : Instr) (k : FatalKind) (n : Option Nat) : (s.raiseIn j k n).st = s.st := rfl
@[simp] theorem raiseIn_key (j : Instr) (k : FatalKind) (n : Option Nat) : (s.raiseIn j k n).key = s.key := rfl
@[simp] theorem raiseIn_disp (j : Instr) (k : FatalKind) (n : Option Nat) : (s.raiseIn j k n).disp = s.disp := rfl
@[simp] theorem raiseIn_mem (j : Instr) (k : FatalKind) (n : Option Nat) : (s.raiseIn j k n).mem = s.mem := rfl
@[simp] theorem raiseIn_image (j : Instr) (k : FatalKind) (n : Option Nat) : (s.raiseIn j k n).image = s.image := rfl
@[simp] theorem raiseIn_acc (j : Instr) (k : FatalKind) (n : Option Nat) : (s.raiseIn j k n).acc = s.acc := rfl
@[simp] theorem raiseIn_stopReq (j : Instr) (k : FatalKind) (n : Option Nat) : (s.raiseIn j k n).stopReq = false := rfl
@[simp] theorem raiseIn_waiting (j : Instr) (k : FatalKind) (n : Option Nat) : (s.raiseIn j k n).waiting = s.waiting := rfl
@[simp] theorem raiseIn_fatal (j : Instr) (k : FatalKind) (n : Option Nat) : (s.raiseIn j k n).fatal = some ⟨k, s.instrAddr, some (encode j), n⟩ := rfl
@[simp] theorem raiseIn_run (j : Instr) (k : FatalKind) (n : Option Nat) : (s.raiseIn j k n).run = .stopped := rfl
@[simp] theorem raiseIn_loaded (j : Instr) (k : FatalKind) (n : Option Nat) : (s.raiseIn j k n).loaded = s.loaded := rfl
@[simp] theorem raiseIn_ran (j : Instr) (k : FatalKind) (n : Option Nat) : (s.raiseIn j k n).ran = s.ran := rfl
@[simp] theorem raiseIn_debug (j : Instr) (k : FatalKind) (n : Option Nat) : (s.raiseIn j k n).debug = s.debug := rfl
@[simp] theorem raiseIn_counter (j : Instr) (k : FatalKind) (n : Option Nat) : (s.raiseIn j k n).counter = s.counter := rfl
@[simp] theorem raiseIn_restarts (j : Instr) (k : FatalKind) (n : Option Nat) : (s.raiseIn j k n).restarts = s.restarts := rfl
@[simp] theorem raiseIn_params (j : Instr) (k : FatalKind) (n : Option Nat) : (s.raiseIn j k n).params = s.params := rfl
@[simp] theorem raiseIn_draws (j : Instr) (k : FatalKind) (n : Option Nat) : (s.raiseIn j k n).draws = s.draws := rfl
@[simp] theorem raiseIn_turns (j : Instr) (k : FatalKind) (n : Option Nat) : (s.raiseIn j k n).turns = s.turns := rfl
@[simp] theorem raiseIn_out (j : Instr) (k : FatalKind) (n : Option Nat) : (s.raiseIn j k n).out = .fatalReport ⟨k, s.instrAddr, some (encode j), n⟩ :: s.out := rfl
@[simp] theorem raiseIn_reg (j : Instr) (k : FatalKind) (n : Option Nat) (y : Nibble) : (s.raiseIn j k n).reg y = s.reg y := rfl
@[simp] theorem raiseIn_mode (j : Instr) (k : FatalKind) (n : Option Nat) : (s.raiseIn j k n).mode = s.mode := rfl

/-! observeStop -/
@[simp] theorem observeStop_v : (s.observeStop).v = s.v := rfl
@[simp] theorem observeStop_i : (s.observeStop).i = s.i := rfl
@[simp] theorem observeStop_pc : (s.observeStop).pc = s.pc := rfl
@[simp] theorem observeStop_sp : (s.observeStop).sp = s.sp := rfl
@[simp] theorem observeStop_stack : (s.observeStop).stack = s.stack := rfl
@[simp] theorem observeStop_dt : (s.observeStop).dt = s.dt := rfl
@[simp] theorem observeStop_st : (s.observeStop).st = s.st := rfl
@[simp] theorem observeStop_key : (s.observeStop).key = s.key := rfl
@[simp] theorem observeStop_disp : (s.observeStop).disp = s.disp := rfl
@[simp] theorem observeStop_mem : (s.observeStop).mem = s.mem := rfl
@[simp] theorem observeStop_image : (s.observeStop).image = s.image := rfl
@[simp] theorem observeStop_acc : (s.observeStop).acc = s.acc := rfl
@[simp] theorem observeStop_stopReq : (s.observeStop).stopReq = false := rfl
@[simp] theorem observeStop_waiting : (s.observeStop).waiting = s.waiting := rfl
@[simp] theorem observeStop_fatal : (s.observeStop).fatal = s.fatal := rfl
@[simp] theorem observeStop_run : (s.observeStop).run = .stopped := rfl
@[simp] theorem observeStop_loaded : (s.observeStop).loaded = s.loaded := rfl
@[simp] theorem observeStop_ran : (s.observeStop).ran = s.ran := rfl
@[simp] theorem observeStop_debug : (s.observeStop).debug = s.debug := rfl
@[simp] theorem observeStop_counter : (s.observeStop).counter = s.counter := rfl
@[simp] theorem observeStop_restarts : (s.observeStop).restarts = s.restarts := rfl
@[simp] theorem observeStop_params : (s.observeStop).params = s.params := rfl
@[simp] theorem observeStop_draws : (s.observeStop).draws = s.draws := rfl
@[simp] theorem observeStop_turns : (s.observeStop).turns = s.turns := rfl
@[simp] theorem observeStop_out : (s.observeStop).out = s.out := rfl
@[simp] theorem observeStop_reg (y : Nibble) : (s.observeStop).reg y = s.reg y := rfl
@[simp] theorem observeStop_mode : (s.observeStop).mode = s.mode := rfl

/-! clearProgramState -/
@[simp] theorem clearProgramState_v : (s.clearProgramState).v = Vector.replicate 16 0 := rfl
@[simp] theorem clearProgramState_i : (s.clearProgramState).i = 0 := rfl
@[simp] theorem clearProgramState_pc : (s.clearProgramState).pc = BitVec.ofNat 16 base := rfl
@[simp] theorem clearProgramState_sp : (s.clearProgramState).sp = 0 := rfl
@[simp] theorem clearProgramState_stack : (s.clearProgramState).stack = Vector.replicate 16 0 := rfl
@[simp] theorem clearProgramState_dt : (s.clearProgramState).dt = 0 := rfl
@[simp] theorem clearProgramState_st : (s.clearProgramState).st = 0 := rfl
@[simp] theorem clearProgramState_key : (s.clearProgramState).key = Vector.replicate 16 false := rfl
@[simp] theorem clearProgramState_disp : (s.clearProgramState).disp = s.disp := rfl
@[simp] theorem clearProgramState_mem : (s.clearProgramState).mem = s.mem := rfl
@[simp] theorem clearProgramState_image : (s.clearProgramState).image = s.image := rfl
@[simp] theorem clearProgramState_acc : (s.clearProgramState).acc = s.acc := rfl
@[simp] theorem clearProgramState_stopReq : (s.clearProgramState).stopReq = false := rfl
@[simp] theorem clearProgramState_waiting : (s.clearProgramState).waiting = none := rfl
@[simp] theorem clearProgramState_fatal : (s.clearProgramState).fatal = none := rfl
@[simp] theorem clearProgramState_run : (s.clearProgramState).run = s.run := rfl
@[simp] theorem clearProgramState_loaded : (s.clearProgramState).loaded = s.loaded := rfl
@[simp] theorem clearProgramState_ran : (s.clearProgramState).ran = s.ran := rfl
@[simp] theorem clearProgramState_debug : (s.clearProgramState).debug = s.debug := rfl
@[simp] theorem clearProgramState_counter : (s.clearProgramState).counter = s.counter := rfl
@[simp] theorem clearProgramState_restarts : (s.clearProgramState).restarts = s.restarts := rfl
@[simp] theorem clearProgramState_params : (s.clearProgramState).params = s.params := rfl
@[simp] theorem clearProgramState_draws : (s.clearProgramState).draws = s.draws := rfl
@[simp] theorem clearProgramState_turns : (s.clearProgramState).turns = s.turns := rfl
@[simp] theorem clearProgramState_out : (s.clearProgramState).out = s.out := rfl
@[simp] theorem clearProgramState_mode : (s.clearProgramState).mode = s.mode := rfl

/-! Accessors over the updates that change them. -/

/-- A register after a register write. -/
@[simp] theorem setReg_reg (x y : Nibble) (b : Byte) : (s.setReg x b).reg y = if y = x then b else s.reg y := by
  simp only [setReg, reg, Vector.getElem_set, BitVec.toNat_inj, eq_comm]

theorem setReg_reg_same (x : Nibble) (b : Byte) : (s.setReg x b).reg x = b := by simp

theorem setReg_reg_other (x y : Nibble) (b : Byte) (h : y ≠ x) : (s.setReg x b).reg y = s.reg y := by simp [h]

/-- Two states with the same registers have the same register file. -/
theorem v_eq_of_reg_eq (t : State) (h : ∀ y, t.reg y = s.reg y) : t.v = s.v := by
  apply Vector.ext
  intro n hn
  simpa [reg, BitVec.toNat_ofNat, Nat.mod_eq_of_lt hn] using h (BitVec.ofNat 4 n)

/-- After an advance by 2 the instruction's address is the old `pc` (30 R101). -/
@[simp] theorem advancePc_instrAddr : s.advancePc.instrAddr = s.pc := by simp [instrAddr]

/-- A stack slot after a push: the pushed word at the old `sp`, every other slot as before (10 R41). -/
theorem push_slot (a : Word) (h : s.sp.val < 16) (j : Nat) (hj : j < 16) :
    (s.push a h).stack[j] = if j = s.sp.val then a else s.stack[j] := by
  simp only [push_stack, Vector.getElem_set, eq_comm]

/-- A pop after a push reads the pushed word (10 R41). -/
@[simp] theorem push_top (a : Word) (h : s.sp.val < 16) : (s.push a h).top = a := by simp [top]

/-- A drop after a push restores `sp` (10 R41). -/
@[simp] theorem push_dropTop_sp (a : Word) (h : s.sp.val < 16) : (s.push a h).dropTop.sp = s.sp := by
  apply Fin.ext; simp

/-- Everything the mode switch can do (47 R260). -/
theorem setMode_cases (m : Mode) :
    (m = s.mode ∧ s.setMode m = s) ∨
    (m ≠ s.mode ∧ s.setMode m = (s.setDisp (Surface.blank m)).emit (.geometry m.width m.height)) := by
  by_cases h : m = s.mode <;> simp [setMode, h]

end Sys2Proof.Machine.State
end

