-- ==== Sys2Proof/Laws/Ops.lean ====
section
/-! SUPPORT. What each shared operation can do, once: range checks, skips, the I step, the flag and result writes, the
register load, the frame buffer, the key scan. -/

namespace Sys2Proof.Machine

/-! ## Range checks (20 R83 to R85) -/

theorem readFault_eq_none (a : Nat) : readFault a = none ↔ a < memSize := by
  unfold readFault; split <;> simp <;> omega

theorem readFault_eq_some (a : Nat) (k : FatalKind) :
    readFault a = some k ↔ memSize ≤ a ∧ k = .addressOutOfBounds := by
  unfold readFault; split <;> simp [*, eq_comm]

theorem writeFault_eq_none (p : Params) (a : Nat) :
    writeFault p a = none ↔ a < memSize ∧ (a < glyphLen → p.glyphWrite = .ignore) := by
  unfold writeFault
  cases hg : p.glyphWrite <;> split <;> (try split) <;> simp_all

theorem writeFault_eq_some (p : Params) (a : Nat) (k : FatalKind) :
    writeFault p a = some k ↔
      (memSize ≤ a ∧ k = .addressOutOfBounds) ∨ (a < glyphLen ∧ p.glyphWrite = .fault ∧ k = .glyphWrite) := by
  have : glyphLen ≤ memSize := by decide
  unfold writeFault
  split
  · rename_i h
    have : ¬ a < glyphLen := by omega
    simp [h, this, eq_comm]
  · rename_i h
    split
    · rename_i h2
      simp [h, h2, eq_comm]
    · rename_i h2
      simp only [reduceCtorEq, h, false_and, false_or, false_iff]
      rintro ⟨h3, h4, -⟩
      exact h2 ⟨h3, h4⟩

/-- A range passes the check when every address of it does. -/
theorem firstFault_eq_none (f : Nat → Option FatalKind) (a n : Nat) :
    firstFault f a n = none ↔ ∀ k, k < n → f (a + k) = none := by
  induction n generalizing a with
  | zero => simp [firstFault]
  | succ n ih =>
    cases hf : f a with
    | some k =>
      simp only [firstFault, hf, reduceCtorEq, false_iff, not_forall]
      exact ⟨0, by omega, by simp [hf]⟩
    | none =>
      simp only [firstFault, hf, ih]
      constructor
      · intro h k hk
        cases k with
        | zero => exact hf
        | succ k => have := h k (by omega); rwa [show a + 1 + k = a + (k + 1) by omega] at this
      · intro h k hk
        have := h (k + 1) (by omega)
        rwa [show a + (k + 1) = a + 1 + k by omega] at this

/-- A range fails the check with the fault of its lowest offending address. -/
theorem firstFault_eq_some (f : Nat → Option FatalKind) (a n : Nat) (kind : FatalKind) (b : Nat) :
    firstFault f a n = some (kind, b) ↔
      ∃ k, k < n ∧ b = a + k ∧ f b = some kind ∧ ∀ j, j < k → f (a + j) = none := by
  induction n generalizing a with
  | zero => simp [firstFault]
  | succ n ih =>
    cases hf : f a with
    | some k =>
      simp only [firstFault, hf, Option.some.injEq, Prod.mk.injEq]
      constructor
      · rintro ⟨rfl, rfl⟩
        exact ⟨0, by omega, rfl, hf, by intro j hj; omega⟩
      · rintro ⟨j, hj, rfl, h1, h2⟩
        cases j with
        | zero => simp only [Nat.add_zero] at h1 ⊢; rw [hf] at h1; simpa using h1
        | succ j => have := h2 0 (by omega); simp [hf] at this
    | none =>
      simp only [firstFault, hf, ih]
      constructor
      · rintro ⟨k, hk, rfl, h1, h2⟩
        refine ⟨k + 1, by omega, by omega, h1, ?_⟩
        intro j hj
        cases j with
        | zero => exact hf
        | succ j => have := h2 j (by omega); rwa [show a + 1 + j = a + (j + 1) by omega] at this
      · rintro ⟨k, hk, rfl, h1, h2⟩
        cases k with
        | zero => simp [hf] at h1
        | succ k =>
          refine ⟨k, by omega, by omega, h1, ?_⟩
          intro j hj
          have := h2 (j + 1) (by omega)
          rwa [show a + (j + 1) = a + 1 + j by omega] at this

/-- A read range passes the check when it ends inside memory (20 R85). -/
theorem firstFault_read_none (a n : Nat) : firstFault readFault a n = none ↔ (n = 0 ∨ a + n ≤ memSize) := by
  simp only [firstFault_eq_none, readFault_eq_none]
  constructor
  · intro h
    rcases Nat.eq_zero_or_pos n with h0 | h0
    · exact .inl h0
    · have := h (n - 1) (by omega); exact .inr (by omega)
  · rintro (rfl | h) k hk <;> omega

/-- A read range that ends outside memory fails at its lowest address outside (20 R83, R85). -/
theorem firstFault_read_some (a n : Nat) (hn : n ≠ 0) (h : memSize < a + n) :
    firstFault readFault a n = some (.addressOutOfBounds, max a memSize) := by
  rw [firstFault_eq_some]
  refine ⟨max a memSize - a, by omega, by omega, (readFault_eq_some _ _).2 ⟨by omega, rfl⟩, ?_⟩
  intro j hj
  rw [readFault_eq_none]; omega

/-- A write range passes the check when it lies in memory and, under GLYPH_WRITE = fault, above the glyph table (20 R84). -/
theorem firstFault_write_none (p : Params) (a n : Nat) (h : a + n ≤ memSize)
    (hg : p.glyphWrite = .fault → glyphLen ≤ a) : firstFault (writeFault p) a n = none := by
  rw [firstFault_eq_none]
  intro k hk
  rw [writeFault_eq_none]
  refine ⟨by omega, fun hf => ?_⟩
  cases e : p.glyphWrite
  · have := hg e; omega
  · rfl

/-- A write range that ends outside memory, and starts above the glyph table where that is protected, fails at its lowest
address outside (20 R84, R85). -/
theorem firstFault_write_bounds (p : Params) (a n : Nat) (hn : n ≠ 0) (h : memSize < a + n)
    (hg : p.glyphWrite = .fault → glyphLen ≤ a) :
    firstFault (writeFault p) a n = some (.addressOutOfBounds, max a memSize) := by
  rw [firstFault_eq_some]
  refine ⟨max a memSize - a, by omega, by omega, ?_, ?_⟩
  · have : memSize ≤ max a memSize := by omega
    simp [writeFault, this]
  · intro j hj
    rw [writeFault_eq_none]
    refine ⟨by omega, fun hf => ?_⟩
    cases e : p.glyphWrite
    · have := hg e; omega
    · rfl

/-- A write range that starts in the protected glyph table fails at its first address (20 R76, R84). -/
theorem firstFault_write_glyph (p : Params) (a n : Nat) (hn : n ≠ 0) (h : a < glyphLen) (hg : p.glyphWrite = .fault) :
    firstFault (writeFault p) a n = some (.glyphWrite, a) := by
  rw [firstFault_eq_some]
  refine ⟨0, by omega, rfl, ?_, by omega⟩
  have : ¬ memSize ≤ a := by simp only [glyphLen, memSize] at *; omega
  simp [writeFault, this, h, hg]

/-! ## Conditional updates -/

namespace State

variable (s : State)

@[simp] theorem skipIf_v (c : Bool) : (s.skipIf c).v = s.v := by unfold skipIf; split <;> rfl
@[simp] theorem skipIf_i (c : Bool) : (s.skipIf c).i = s.i := by unfold skipIf; split <;> rfl
@[simp] theorem skipIf_sp (c : Bool) : (s.skipIf c).sp = s.sp := by unfold skipIf; split <;> rfl
@[simp] theorem skipIf_stack (c : Bool) : (s.skipIf c).stack = s.stack := by unfold skipIf; split <;> rfl
@[simp] theorem skipIf_dt (c : Bool) : (s.skipIf c).dt = s.dt := by unfold skipIf; split <;> rfl
@[simp] theorem skipIf_st (c : Bool) : (s.skipIf c).st = s.st := by unfold skipIf; split <;> rfl
@[simp] theorem skipIf_key (c : Bool) : (s.skipIf c).key = s.key := by unfold skipIf; split <;> rfl
@[simp] theorem skipIf_disp (c : Bool) : (s.skipIf c).disp = s.disp := by unfold skipIf; split <;> rfl
@[simp] theorem skipIf_mem (c : Bool) : (s.skipIf c).mem = s.mem := by unfold skipIf; split <;> rfl
@[simp] theorem skipIf_image (c : Bool) : (s.skipIf c).image = s.image := by unfold skipIf; split <;> rfl
@[simp] theorem skipIf_acc (c : Bool) : (s.skipIf c).acc = s.acc := by unfold skipIf; split <;> rfl
@[simp] theorem skipIf_stopReq (c : Bool) : (s.skipIf c).stopReq = s.stopReq := by unfold skipIf; split <;> rfl
@[simp] theorem skipIf_waiting (c : Bool) : (s.skipIf c).waiting = s.waiting := by unfold skipIf; split <;> rfl
@[simp] theorem skipIf_fatal (c : Bool) : (s.skipIf c).fatal = s.fatal := by unfold skipIf; split <;> rfl
@[simp] theorem skipIf_run (c : Bool) : (s.skipIf c).run = s.run := by unfold skipIf; split <;> rfl
@[simp] theorem skipIf_loaded (c : Bool) : (s.skipIf c).loaded = s.loaded := by unfold skipIf; split <;> rfl
@[simp] theorem skipIf_ran (c : Bool) : (s.skipIf c).ran = s.ran := by unfold skipIf; split <;> rfl
@[simp] theorem skipIf_debug (c : Bool) : (s.skipIf c).debug = s.debug := by unfold skipIf; split <;> rfl
@[simp] theorem skipIf_counter (c : Bool) : (s.skipIf c).counter = s.counter := by unfold skipIf; split <;> rfl
@[simp] theorem skipIf_restarts (c : Bool) : (s.skipIf c).restarts = s.restarts := by unfold skipIf; split <;> rfl
@[simp] theorem skipIf_params (c : Bool) : (s.skipIf c).params = s.params := by unfold skipIf; split <;> rfl
@[simp] theorem skipIf_draws (c : Bool) : (s.skipIf c).draws = s.draws := by unfold skipIf; split <;> rfl
@[simp] theorem skipIf_turns (c : Bool) : (s.skipIf c).turns = s.turns := by unfold skipIf; split <;> rfl
@[simp] theorem skipIf_out (c : Bool) : (s.skipIf c).out = s.out := by unfold skipIf; split <;> rfl
@[simp] theorem skipIf_reg (c : Bool) (y : Nibble) : (s.skipIf c).reg y = s.reg y := by unfold skipIf; split <;> rfl
@[simp] theorem skipIf_mode (c : Bool) : (s.skipIf c).mode = s.mode := by unfold skipIf; split <;> rfl

@[simp] theorem stepI_v (x : Nibble) : (s.stepI x).v = s.v := by unfold stepI; split <;> rfl
@[simp] theorem stepI_pc (x : Nibble) : (s.stepI x).pc = s.pc := by unfold stepI; split <;> rfl
@[simp] theorem stepI_sp (x : Nibble) : (s.stepI x).sp = s.sp := by unfold stepI; split <;> rfl
@[simp] theorem stepI_stack (x : Nibble) : (s.stepI x).stack = s.stack := by unfold stepI; split <;> rfl
@[simp] theorem stepI_dt (x : Nibble) : (s.stepI x).dt = s.dt := by unfold stepI; split <;> rfl
@[simp] theorem stepI_st (x : Nibble) : (s.stepI x).st = s.st := by unfold stepI; split <;> rfl
@[simp] theorem stepI_key (x : Nibble) : (s.stepI x).key = s.key := by unfold stepI; split <;> rfl
@[simp] theorem stepI_disp (x : Nibble) : (s.stepI x).disp = s.disp := by unfold stepI; split <;> rfl
@[simp] theorem stepI_mem (x : Nibble) : (s.stepI x).mem = s.mem := by unfold stepI; split <;> rfl
@[simp] theorem stepI_image (x : Nibble) : (s.stepI x).image = s.image := by unfold stepI; split <;> rfl
@[simp] theorem stepI_acc (x : Nibble) : (s.stepI x).acc = s.acc := by unfold stepI; split <;> rfl
@[simp] theorem stepI_stopReq (x : Nibble) : (s.stepI x).stopReq = s.stopReq := by unfold stepI; split <;> rfl
@[simp] theorem stepI_waiting (x : Nibble) : (s.stepI x).waiting = s.waiting := by unfold stepI; split <;> rfl
@[simp] theorem stepI_fatal (x : Nibble) : (s.stepI x).fatal = s.fatal := by unfold stepI; split <;> rfl
@[simp] theorem stepI_run (x : Nibble) : (s.stepI x).run = s.run := by unfold stepI; split <;> rfl
@[simp] theorem stepI_loaded (x : Nibble) : (s.stepI x).loaded = s.loaded := by unfold stepI; split <;> rfl
@[simp] theorem stepI_ran (x : Nibble) : (s.stepI x).ran = s.ran := by unfold stepI; split <;> rfl
@[simp] theorem stepI_debug (x : Nibble) : (s.stepI x).debug = s.debug := by unfold stepI; split <;> rfl
@[simp] theorem stepI_counter (x : Nibble) : (s.stepI x).counter = s.counter := by unfold stepI; split <;> rfl
@[simp] theorem stepI_restarts (x : Nibble) : (s.stepI x).restarts = s.restarts := by unfold stepI; split <;> rfl
@[simp] theorem stepI_params (x : Nibble) : (s.stepI x).params = s.params := by unfold stepI; split <;> rfl
@[simp] theorem stepI_draws (x : Nibble) : (s.stepI x).draws = s.draws := by unfold stepI; split <;> rfl
@[simp] theorem stepI_turns (x : Nibble) : (s.stepI x).turns = s.turns := by unfold stepI; split <;> rfl
@[simp] theorem stepI_out (x : Nibble) : (s.stepI x).out = s.out := by unfold stepI; split <;> rfl
@[simp] theorem stepI_reg (x : Nibble) (y : Nibble) : (s.stepI x).reg y = s.reg y := by unfold stepI; split <;> rfl
@[simp] theorem stepI_mode (x : Nibble) : (s.stepI x).mode = s.mode := by unfold stepI; split <;> rfl

@[simp] theorem setMode_v (m : Mode) : (s.setMode m).v = s.v := by unfold setMode; split <;> rfl
@[simp] theorem setMode_i (m : Mode) : (s.setMode m).i = s.i := by unfold setMode; split <;> rfl
@[simp] theorem setMode_pc (m : Mode) : (s.setMode m).pc = s.pc := by unfold setMode; split <;> rfl
@[simp] theorem setMode_sp (m : Mode) : (s.setMode m).sp = s.sp := by unfold setMode; split <;> rfl
@[simp] theorem setMode_stack (m : Mode) : (s.setMode m).stack = s.stack := by unfold setMode; split <;> rfl
@[simp] theorem setMode_dt (m : Mode) : (s.setMode m).dt = s.dt := by unfold setMode; split <;> rfl
@[simp] theorem setMode_st (m : Mode) : (s.setMode m).st = s.st := by unfold setMode; split <;> rfl
@[simp] theorem setMode_key (m : Mode) : (s.setMode m).key = s.key := by unfold setMode; split <;> rfl
@[simp] theorem setMode_mem (m : Mode) : (s.setMode m).mem = s.mem := by unfold setMode; split <;> rfl
@[simp] theorem setMode_image (m : Mode) : (s.setMode m).image = s.image := by unfold setMode; split <;> rfl
@[simp] theorem setMode_acc (m : Mode) : (s.setMode m).acc = s.acc := by unfold setMode; split <;> rfl
@[simp] theorem setMode_stopReq (m : Mode) : (s.setMode m).stopReq = s.stopReq := by unfold setMode; split <;> rfl
@[simp] theorem setMode_waiting (m : Mode) : (s.setMode m).waiting = s.waiting := by unfold setMode; split <;> rfl
@[simp] theorem setMode_fatal (m : Mode) : (s.setMode m).fatal = s.fatal := by unfold setMode; split <;> rfl
@[simp] theorem setMode_run (m : Mode) : (s.setMode m).run = s.run := by unfold setMode; split <;> rfl
@[simp] theorem setMode_loaded (m : Mode) : (s.setMode m).loaded = s.loaded := by unfold setMode; split <;> rfl
@[simp] theorem setMode_ran (m : Mode) : (s.setMode m).ran = s.ran := by unfold setMode; split <;> rfl
@[simp] theorem setMode_debug (m : Mode) : (s.setMode m).debug = s.debug := by unfold setMode; split <;> rfl
@[simp] theorem setMode_counter (m : Mode) : (s.setMode m).counter = s.counter := by unfold setMode; split <;> rfl
@[simp] theorem setMode_restarts (m : Mode) : (s.setMode m).restarts = s.restarts := by unfold setMode; split <;> rfl
@[simp] theorem setMode_params (m : Mode) : (s.setMode m).params = s.params := by unfold setMode; split <;> rfl
@[simp] theorem setMode_draws (m : Mode) : (s.setMode m).draws = s.draws := by unfold setMode; split <;> rfl
@[simp] theorem setMode_turns (m : Mode) : (s.setMode m).turns = s.turns := by unfold setMode; split <;> rfl
@[simp] theorem setMode_reg (m : Mode) (y : Nibble) : (s.setMode m).reg y = s.reg y := by unfold setMode; split <;> rfl

@[simp] theorem writeFlagAndResult_i (x a b : Nibble) (f g : Byte → Byte → Byte) : (s.writeFlagAndResult x a b f g).i = s.i := by unfold writeFlagAndResult; split <;> rfl
@[simp] theorem writeFlagAndResult_pc (x a b : Nibble) (f g : Byte → Byte → Byte) : (s.writeFlagAndResult x a b f g).pc = s.pc := by unfold writeFlagAndResult; split <;> rfl
@[simp] theorem writeFlagAndResult_sp (x a b : Nibble) (f g : Byte → Byte → Byte) : (s.writeFlagAndResult x a b f g).sp = s.sp := by unfold writeFlagAndResult; split <;> rfl
@[simp] theorem writeFlagAndResult_stack (x a b : Nibble) (f g : Byte → Byte → Byte) : (s.writeFlagAndResult x a b f g).stack = s.stack := by unfold writeFlagAndResult; split <;> rfl
@[simp] theorem writeFlagAndResult_dt (x a b : Nibble) (f g : Byte → Byte → Byte) : (s.writeFlagAndResult x a b f g).dt = s.dt := by unfold writeFlagAndResult; split <;> rfl
@[simp] theorem writeFlagAndResult_st (x a b : Nibble) (f g : Byte → Byte → Byte) : (s.writeFlagAndResult x a b f g).st = s.st := by unfold writeFlagAndResult; split <;> rfl
@[simp] theorem writeFlagAndResult_key (x a b : Nibble) (f g : Byte → Byte → Byte) : (s.writeFlagAndResult x a b f g).key = s.key := by unfold writeFlagAndResult; split <;> rfl
@[simp] theorem writeFlagAndResult_disp (x a b : Nibble) (f g : Byte → Byte → Byte) : (s.writeFlagAndResult x a b f g).disp = s.disp := by unfold writeFlagAndResult; split <;> rfl
@[simp] theorem writeFlagAndResult_mem (x a b : Nibble) (f g : Byte → Byte → Byte) : (s.writeFlagAndResult x a b f g).mem = s.mem := by unfold writeFlagAndResult; split <;> rfl
@[simp] theorem writeFlagAndResult_image (x a b : Nibble) (f g : Byte → Byte → Byte) : (s.writeFlagAndResult x a b f g).image = s.image := by unfold writeFlagAndResult; split <;> rfl
@[simp] theorem writeFlagAndResult_acc (x a b : Nibble) (f g : Byte → Byte → Byte) : (s.writeFlagAndResult x a b f g).acc = s.acc := by unfold writeFlagAndResult; split <;> rfl
@[simp] theorem writeFlagAndResult_stopReq (x a b : Nibble) (f g : Byte → Byte → Byte) : (s.writeFlagAndResult x a b f g).stopReq = s.stopReq := by unfold writeFlagAndResult; split <;> rfl
@[simp] theorem writeFlagAndResult_waiting (x a b : Nibble) (f g : Byte → Byte → Byte) : (s.writeFlagAndResult x a b f g).waiting = s.waiting := by unfold writeFlagAndResult; split <;> rfl
@[simp] theorem writeFlagAndResult_fatal (x a b : Nibble) (f g : Byte → Byte → Byte) : (s.writeFlagAndResult x a b f g).fatal = s.fatal := by unfold writeFlagAndResult; split <;> rfl
@[simp] theorem writeFlagAndResult_run (x a b : Nibble) (f g : Byte → Byte → Byte) : (s.writeFlagAndResult x a b f g).run = s.run := by unfold writeFlagAndResult; split <;> rfl
@[simp] theorem writeFlagAndResult_loaded (x a b : Nibble) (f g : Byte → Byte → Byte) : (s.writeFlagAndResult x a b f g).loaded = s.loaded := by unfold writeFlagAndResult; split <;> rfl
@[simp] theorem writeFlagAndResult_ran (x a b : Nibble) (f g : Byte → Byte → Byte) : (s.writeFlagAndResult x a b f g).ran = s.ran := by unfold writeFlagAndResult; split <;> rfl
@[simp] theorem writeFlagAndResult_debug (x a b : Nibble) (f g : Byte → Byte → Byte) : (s.writeFlagAndResult x a b f g).debug = s.debug := by unfold writeFlagAndResult; split <;> rfl
@[simp] theorem writeFlagAndResult_counter (x a b : Nibble) (f g : Byte → Byte → Byte) : (s.writeFlagAndResult x a b f g).counter = s.counter := by unfold writeFlagAndResult; split <;> rfl
@[simp] theorem writeFlagAndResult_restarts (x a b : Nibble) (f g : Byte → Byte → Byte) : (s.writeFlagAndResult x a b f g).restarts = s.restarts := by unfold writeFlagAndResult; split <;> rfl
@[simp] theorem writeFlagAndResult_params (x a b : Nibble) (f g : Byte → Byte → Byte) : (s.writeFlagAndResult x a b f g).params = s.params := by unfold writeFlagAndResult; split <;> rfl
@[simp] theorem writeFlagAndResult_draws (x a b : Nibble) (f g : Byte → Byte → Byte) : (s.writeFlagAndResult x a b f g).draws = s.draws := by unfold writeFlagAndResult; split <;> rfl
@[simp] theorem writeFlagAndResult_turns (x a b : Nibble) (f g : Byte → Byte → Byte) : (s.writeFlagAndResult x a b f g).turns = s.turns := by unfold writeFlagAndResult; split <;> rfl
@[simp] theorem writeFlagAndResult_out (x a b : Nibble) (f g : Byte → Byte → Byte) : (s.writeFlagAndResult x a b f g).out = s.out := by unfold writeFlagAndResult; split <;> rfl
@[simp] theorem writeFlagAndResult_mode (x a b : Nibble) (f g : Byte → Byte → Byte) : (s.writeFlagAndResult x a b f g).mode = s.mode := by unfold writeFlagAndResult; split <;> rfl

/-- A skip adds 2 to `pc` when its condition holds, and changes nothing otherwise (40 R134). -/
@[simp] theorem skipIf_pc (c : Bool) : (s.skipIf c).pc = if c then s.pc + 2 else s.pc := by
  cases c <;> rfl

/-- `I` after Fx55 and Fx65 (46 R237, R238). -/
theorem stepI_i (x : Nibble) :
    (s.stepI x).i = if s.params.ldstIMode = .increment then s.i + BitVec.ofNat 16 (x.toNat + 1) else s.i := by
  unfold stepI; split <;> simp_all [regCount]

/-- The flag and result writes, operands read once: VF is the flag unless it is the destination (42 R161). -/
theorem writeFlagAndResult_sampled (x a b y : Nibble) (f g : Byte → Byte → Byte) (h : s.params.aluVfOrder = .sampled) :
    (s.writeFlagAndResult x a b f g).reg y =
      if y = x then g (s.reg a) (s.reg b) else if y = vf then f (s.reg a) (s.reg b) else s.reg y := by
  simp [writeFlagAndResult, h]

/-- The flag and result writes, operands read again after the flag write (42 R161). -/
theorem writeFlagAndResult_reread (x a b y : Nibble) (f g : Byte → Byte → Byte) (h : s.params.aluVfOrder = .reread) :
    (s.writeFlagAndResult x a b f g).reg y =
      if y = x then g (if a = vf then f (s.reg a) (s.reg b) else s.reg a) (if b = vf then f (s.reg a) (s.reg b) else s.reg b)
      else if y = vf then f (s.reg a) (s.reg b) else s.reg y := by
  simp [writeFlagAndResult, h]

@[simp] theorem length_firstRegs (x : Nibble) : (s.firstRegs (regCount x)).length = regCount x := by
  have := x.isLt
  simp only [firstRegs, List.length_take, Vector.length_toList, regCount]
  omega

/-- The k-th byte stored by Fx55 is `V[k]` (46 R237). -/
theorem getD_firstRegs (x : Nibble) (k : Nat) (hk : k < regCount x) :
    (s.firstRegs (regCount x)).getD k 0 = s.reg (BitVec.ofNat 4 k) := by
  have hx := x.isLt
  have h16 : k < 16 := by simp only [regCount] at hk; omega
  have hk' : k < s.v.toList.length := by simpa using h16
  simp [firstRegs, List.getD, hk, List.getElem?_eq_getElem hk', reg, Nat.mod_eq_of_lt h16]

/-- The scan for a pressed key answers the lowest one (46 R231). -/
theorem firstPressed_eq_some (k : Nat) :
    s.firstPressed = some k ↔ k < 16 ∧ s.keyPressed k = true ∧ ∀ j, j < k → s.keyPressed j = false := by
  unfold firstPressed
  rw [List.find?_range_eq_some]
  simp [and_left_comm]

/-- The scan answers none when no key is pressed. -/
theorem firstPressed_eq_none : s.firstPressed = none ↔ ∀ k, k < 16 → s.keyPressed k = false := by
  unfold firstPressed
  simp [List.find?_eq_none]

end State

/-! ## Register load (46 R238) -/

/-- After the load, register k < n holds the byte at a + k, every other register is as before. -/
theorem loadRegs_getElem (m : Memory) (a n : Nat) (v : Vector Byte 16) (k : Nat) (hk : k < 16) :
    (loadRegs m a n v)[k] = if k < n then m.read (a + k) else v[k] := by
  induction n with
  | zero => simp [loadRegs]
  | succ n ih =>
    simp only [loadRegs, Vector.getElem_setIfInBounds, ih]
    by_cases h : n = k
    · subst h; simp
    · have : k < n + 1 ↔ k < n := by omega
      simp [h, this]

/-! ## Frame buffer (10 R44 to R47) -/

namespace Surface

@[simp] theorem mode_blank (m : Mode) : (blank m).mode = m := by cases m <;> rfl

@[simp] theorem mode_flip (d : Surface) (r c : Nat) : (d.flip r c).mode = d.mode := by cases d <;> rfl

/-- A blank buffer has no pixel lit. -/
@[simp] theorem pixel_blank (m : Mode) (r c : Nat) : (blank m).pixel r c = false := by
  cases m <;> simp only [blank, pixel] <;>
    (rw [Vector.getElem?_replicate]; split <;> simp)

/-- Outside the buffer no pixel is lit. -/
theorem pixel_outside (d : Surface) (r c : Nat) (h : ¬ (r < d.mode.height ∧ c < d.mode.width)) : d.pixel r c = false := by
  cases d <;> rename_i rows <;> simp only [mode, Mode.height, Mode.width, not_and, Nat.not_lt] at h <;> simp only [pixel]
  · by_cases hr : r < 32
    · exact BitVec.getLsbD_of_ge _ _ (h hr)
    · rw [Vector.getElem?_eq_none (by omega)]; simp
  · by_cases hr : r < 64
    · exact BitVec.getLsbD_of_ge _ _ (h hr)
    · rw [Vector.getElem?_eq_none (by omega)]; simp

/-- A flip inverts its pixel and leaves every other pixel alone. -/
theorem pixel_flip (d : Surface) (r c r' c' : Nat) (hr : r < d.mode.height) (hc : c < d.mode.width) :
    (d.flip r c).pixel r' c' = (d.pixel r' c' ^^ decide (r' = r ∧ c' = c)) := by
  cases d <;> rename_i rows <;> simp only [mode, Mode.height, Mode.width] at hr hc <;> simp only [pixel, flip] <;>
    rw [Vector.getElem?_setIfInBounds] <;>
    by_cases h : r = r'
  · subst h
    simp [hr, BitVec.getLsbD_twoPow, hc, eq_comm]
  · simp [h, Ne.symm h]
  · subst h
    simp [hr, BitVec.getLsbD_twoPow, hc, eq_comm]
  · simp [h, Ne.symm h]

/-- Two buffers of one mode with the same pixels are the same data. -/
theorem eq_of_pixel_eq (d d' : Surface) (hm : d.mode = d'.mode) (h : ∀ r c, d.pixel r c = d'.pixel r c) : d = d' := by
  cases d <;> cases d' <;> simp only [mode, reduceCtorEq] at hm <;> congr 1 <;> apply Vector.ext <;> intro r hr <;>
    apply BitVec.eq_of_getLsbD_eq <;> intro c _ <;> simpa [pixel, hr] using h r c

end Surface

end Sys2Proof.Machine
end

