-- ==== Sys2Proof/Laws/Engine.lean ====
section
/-! SUPPORT. What the engine's turn is, said once: which turn a step takes, when a fetch raises nothing, and what an iteration
does when the engine may fetch (20 R90, 30 R101, 60 R303). -/

namespace Sys2Proof.Machine

namespace State

variable {s s' : State}

/-- An engine turn takes its turn off the list and changes nothing else. -/
theorem EngineTurn.eq (h : s.EngineTurn s') : s' = { s with turns := s'.turns } := by
  obtain ⟨-, -, rfl⟩ | ⟨rest, -, rfl⟩ := h <;> rfl

/-- In an engine turn the step is the engine's. -/
theorem EngineTurn.step (h : s.EngineTurn s') : step s = engineStep s' := by
  obtain ⟨ht, hr, rfl⟩ | ⟨rest, ht, rfl⟩ := h
  · simp only [Machine.step, nextTurn, ht, hr]; rfl
  · simp only [Machine.step, nextTurn, ht]; rfl

/-- A fetch raises nothing exactly when it is legal (10 R39, 30 R102). -/
theorem fetchFault_eq_none (s : State) : s.fetchFault = none ↔ s.FetchLegal := by
  unfold fetchFault FetchLegal
  split
  · next h => simp only [reduceCtorEq, false_iff]; intro h'; have := h'.1 h.1; have := h.2; simp only [base] at this; omega
  · next h =>
    rw [firstFault_read_none]
    simp only [memSize, base, not_and, Nat.not_lt] at *
    constructor
    · intro h'; exact ⟨h, by omega⟩
    · intro h'; omega

/-- A fetch below 0x200, where that is checked (10 R39). -/
theorem fetchFault_low (s : State) (h : s.params.pcLowCheck = .fault) (h' : s.pc.toNat < 0x200) :
    s.fetchFault = some (.illegalPc, s.pc.toNat) := by
  unfold fetchFault; rw [if_pos ⟨h, h'⟩]

/-- A fetch that leaves memory raises AddressOutOfBounds at the lowest byte outside (30 R102). -/
theorem fetchFault_high (s : State) (h : 4095 ≤ s.pc.toNat) :
    s.fetchFault = some (.addressOutOfBounds, max s.pc.toNat 4096) := by
  unfold fetchFault
  rw [if_neg (by simp only [base]; omega), firstFault_read_some _ _ (by decide) (by simp only [memSize]; omega)]
  rfl

end State

/-- An engine that may go on and does not wait makes an iteration. -/
theorem engineStep_iteration (s : State) (hr : s.run ≠ .stopped) (hf : s.fatal = none) (hw : s.waiting = none) :
    engineStep s = iteration s := by
  simp [engineStep, hr, hf, hw]

/-- An engine that may go on and waits polls. -/
theorem engineStep_poll (s : State) (w : Wait) (hr : s.run ≠ .stopped) (hf : s.fatal = none) (hw : s.waiting = some w) :
    engineStep s = .next (s.poll w) := by
  simp [engineStep, hr, hf, hw]

/-- An engine that may not go on does nothing (60 R303, R342). -/
theorem engineStep_idle (s : State) (h : s.run = .stopped ∨ s.fatal ≠ none) : engineStep s = .next s := by
  rw [engineStep, if_pos]
  exact h.imp id Option.isSome_iff_ne_none.2

/-- An iteration whose fetch raises (30 R102, 60 R301). -/
theorem iteration_fault (s : State) (kind : FatalKind) (info : Nat) (hs : s.stopReq = false)
    (h : s.fetchFault = some (kind, info)) : iteration s = .next (s.raiseFatal kind s.pc none (some info)) := by
  simp [iteration, hs, h]

/-- An iteration that runs an instruction (30 R101). -/
theorem iteration_exec (s : State) (i : Instr) (hs : s.stopReq = false) (hl : s.FetchLegal)
    (h : decodeWord s.params s.fetchWord = .ok i) : iteration s = exec i s.advancePc := by
  have hf := (s.fetchFault_eq_none).2 hl
  simp only [State.fetchWord] at h
  simp [iteration, hs, hf, State.fetchBytes, decode, h]

/-- An iteration whose word is no instruction (30 R110). -/
theorem iteration_unknown (s : State) (e : DecodeError) (hs : s.stopReq = false) (hl : s.FetchLegal)
    (h : decodeWord s.params s.fetchWord = .error e) : iteration s = .next (s.advancePc.diagUnknown s.fetchWord s.pc) := by
  have hf := (s.fetchFault_eq_none).2 hl
  have h' := h
  simp only [State.fetchWord] at h
  simp [iteration, hs, hf, State.fetchBytes, decode, h]

/-- What an iteration can do: honour the Stop request, raise at the fetch, run the decoded instruction, or report an unknown
opcode. -/
theorem iteration_cases (s t : State) (h : iteration s = .next t) :
    (s.stopReq = true ∧ t = s.observeStop) ∨
    (∃ kind info, s.stopReq = false ∧ s.fetchFault = some (kind, info) ∧ t = s.raiseFatal kind s.pc none (some info)) ∨
    (∃ i, s.stopReq = false ∧ s.FetchLegal ∧ decodeWord s.params s.fetchWord = .ok i ∧ exec i s.advancePc = .next t) ∨
    (∃ e, s.stopReq = false ∧ s.FetchLegal ∧ decodeWord s.params s.fetchWord = .error e ∧
      t = s.advancePc.diagUnknown s.fetchWord s.pc) := by
  cases hs : s.stopReq with
  | true => simp only [iteration, hs, if_true, Host.Outcome.next.injEq] at h; exact .inl ⟨rfl, h.symm⟩
  | false =>
    cases hf : s.fetchFault with
    | some p =>
      rw [iteration_fault s p.1 p.2 hs hf] at h
      exact .inr (.inl ⟨p.1, p.2, rfl, rfl, (Host.Outcome.next.inj h).symm⟩)
    | none =>
      have hl := (s.fetchFault_eq_none).1 hf
      cases hd : decodeWord s.params s.fetchWord with
      | ok i => exact .inr (.inr (.inl ⟨i, rfl, hl, rfl, by rw [iteration_exec s i hs hl hd] at h; exact h⟩))
      | error e =>
        rw [iteration_unknown s e hs hl hd] at h
        exact .inr (.inr (.inr ⟨e, rfl, hl, rfl, (Host.Outcome.next.inj h).symm⟩))

/-- What a poll can do (46 R231). -/
theorem State.poll_cases (s : State) (w : Wait) :
    (s.stopReq = true ∧ s.poll w = ((s.setWaiting none).setPc w.addr).observeStop) ∨
    (∃ k, s.stopReq = false ∧ s.firstPressed = some k ∧ s.poll w = (s.setReg w.x (BitVec.ofNat 8 k)).setWaiting none) ∨
    (s.stopReq = false ∧ s.firstPressed = none ∧ s.poll w = s) := by
  unfold State.poll
  cases s.stopReq <;> cases s.firstPressed <;> simp

/-- What the engine's turn can do. -/
theorem engineStep_cases (s t : State) (h : engineStep s = .next t) :
    ((s.run = .stopped ∨ s.fatal ≠ none) ∧ t = s) ∨
    (s.run ≠ .stopped ∧ s.fatal = none ∧ ∃ w, s.waiting = some w ∧ t = s.poll w) ∨
    (s.run ≠ .stopped ∧ s.fatal = none ∧ s.waiting = none ∧ iteration s = .next t) := by
  by_cases hi : s.run = .stopped ∨ s.fatal ≠ none
  · rw [engineStep_idle s hi] at h; exact .inl ⟨hi, (Host.Outcome.next.inj h).symm⟩
  · rw [not_or, not_not] at hi
    cases hw : s.waiting with
    | some w =>
      rw [engineStep_poll s w hi.1 hi.2 hw] at h
      exact .inr (.inl ⟨hi.1, hi.2, w, rfl, (Host.Outcome.next.inj h).symm⟩)
    | none =>
      rw [engineStep_iteration s hi.1 hi.2 hw] at h
      exact .inr (.inr ⟨hi.1, hi.2, rfl, h⟩)

/-- A step is an engine turn, or the end of a waiting Restart that comes of itself, or another agent's turn. -/
theorem step_cases (s : State) :
    (∃ s', s.EngineTurn s' ∧ step s = engineStep s') ∨
    (s.turns = [] ∧ s.restartReady = true ∧ step s = .next s.finishRestart) ∨
    (∃ u rest, s.turns = u :: rest ∧ u ≠ .engine ∧ step s = takeTurn u { s with turns := rest }) := by
  cases ht : s.turns with
  | nil =>
    cases hr : s.restartReady with
    | true => exact .inr (.inl ⟨rfl, rfl, by simp [step, nextTurn, ht, hr, takeTurn]⟩)
    | false =>
      have he : s.EngineTurn s := .inl ⟨ht, hr, rfl⟩
      exact .inl ⟨s, he, he.step⟩
  | cons u rest =>
    by_cases hu : u = .engine
    · subst hu
      have he : s.EngineTurn { s with turns := rest } := .inr ⟨rest, ht, rfl⟩
      exact .inl ⟨_, he, he.step⟩
    · exact .inr (.inr ⟨u, rest, rfl, hu, by simp only [step, nextTurn, ht]⟩)

/-- Every instruction keeps memory's canonical form. -/
theorem exec_mem_wf (i : Instr) (s t : State) (hw : s.mem.wf = true) (h : exec i s = .next t) : t.mem.wf = true := by
  cases i <;> simp only [exec, execCls, execRet, execJp, execCall, execSeImm, execSneImm, execSeReg, execSneReg, execLdImm,
    execAddImm, execLdReg, execOrReg, execAndReg, execXorReg, execAddReg, execSub, execShr, execSubn, execShl, execLdI,
    execJpV0, execRnd, execDrw, execSkp, execSknp, execLdVxDt, execLdVxK, execLdDtVx, execLdStVx, execAddIVx, execLdFVx,
    execLdBVx, execLdMemVx, execLdVxMem, execLow, execHigh, execScd, execScr, execScl] at h <;> (try split at h) <;>
    (injection h with h; subst h) <;> first | simpa using hw | simpa using Memory.wf_storeAll hw _ _

end Sys2Proof.Machine
end

