-- ==== Sys2Proof/Laws/HostPorts.lean ====
section
/-! SUPPORT. The timer driver's arithmetic and the fields of what a timer step leaves, said once (60 R325, R327). -/

namespace Sys2Proof.Machine

/-- The number of whole ticks is the natural number that brackets the time (60 R325). -/
theorem wholeTicks_eq (p : Params) (t : Rat) (n : Nat) (h : 0 < p.tickMs) :
    (n * p.tickMs ≤ t ∧ t < (n + 1) * p.tickMs) → wholeTicks p t = n := by
  rintro ⟨h₁, h₂⟩
  have e : ⌊t / p.tickMs⌋ = (n : Int) := by
    rw [Int.floor_eq_iff, le_div_iff₀ h, div_lt_iff₀ h]
    exact ⟨by exact_mod_cast h₁, by exact_mod_cast h₂⟩
  show (⌊t / p.tickMs⌋).toNat = n
  rw [e]; exact Int.toNat_natCast n

/-- A nonnegative time is bracketed by its whole ticks. -/
theorem wholeTicks_bracket (p : Params) (t : Rat) (h : 0 < p.tickMs) (ht : 0 ≤ t) :
    wholeTicks p t * p.tickMs ≤ t ∧ t < (wholeTicks p t + 1) * p.tickMs := by
  have h0 : 0 ≤ ⌊t / p.tickMs⌋ := Int.floor_nonneg.2 (div_nonneg ht h.le)
  have e : (wholeTicks p t : Rat) = ((⌊t / p.tickMs⌋ : Int) : Rat) := by
    show (((⌊t / p.tickMs⌋).toNat : Nat) : Rat) = _
    exact_mod_cast Int.toNat_of_nonneg h0
  rw [e]
  exact ⟨(le_div_iff₀ h).1 (Int.floor_le _), (div_lt_iff₀ h).1 (Int.lt_floor_add_one _)⟩

/-- A timer counts down by the ticks, floored at 0. -/
@[simp] theorem countDown_toNat (b : Byte) (t : Nat) : (countDown b t).toNat = b.toNat - t := by
  have := b.isLt
  simp only [countDown, BitVec.toNat_ofNat]
  omega

namespace State

variable (s : State) (ms : Rat)

/-- A timer step is three writes, and one beep when ST goes from nonzero to 0. -/
theorem timeStep_eq :
    s.timeStep ms =
      { s with
        acc := s.acc + ms - wholeTicks s.params (s.acc + ms) * s.params.tickMs
        dt := countDown s.dt (wholeTicks s.params (s.acc + ms))
        st := countDown s.st (wholeTicks s.params (s.acc + ms))
        out := if s.st ≠ 0 ∧ countDown s.st (wholeTicks s.params (s.acc + ms)) = 0 then .beep :: s.out else s.out } := by
  unfold timeStep
  dsimp only
  split <;> rfl

/-- After a timer step less than one tick of time is left over (10 R49). -/
theorem timeStep_acc_range (h : 0 < s.params.tickMs) (ha : 0 ≤ s.acc + ms) :
    0 ≤ (s.timeStep ms).acc ∧ (s.timeStep ms).acc < s.params.tickMs := by
  have := wholeTicks_bracket s.params (s.acc + ms) h ha
  rw [timeStep_eq]
  constructor <;> dsimp only <;> linarith [this.1, this.2]

/-- What the end of a Restart leaves (60 R319, 70 R356). -/
theorem resetAndStart_eq :
    s.resetAndStart =
      { s.clearProgramState with
        mem := if s.params.restartMemory = .reloadImage then s.image else s.mem
        disp := Surface.blank .small
        run := .running
        ran := true
        out := if s.mode = .big then .geometry 64 32 :: s.out else s.out } := by
  unfold resetAndStart resetForRestart
  cases s.mode <;> cases s.params.restartMemory <;> rfl

/-- What a Load of a program that fits leaves (70 R350). -/
theorem load_of_le (program : List Byte) (h : program.length ≤ 3584) :
    s.load program =
      { s.clearProgramState with
        mem := Memory.loaded s.params.glyphs program
        image := Memory.loaded s.params.glyphs program
        disp := Surface.blank .small
        loaded := true
        ran := false
        out := .loadReply .ok :: .geometry 64 32 :: s.out } := by
  unfold load
  rw [if_neg (by simp only [maxProgram, memSize, base]; omega)]
  rfl

/-- A program that does not fit changes nothing (70 R351). -/
theorem load_of_lt (program : List Byte) (h : 3584 < program.length) :
    s.load program = { s with out := .loadReply (.outOfBounds program.length) :: s.out } := by
  unfold load
  rw [if_pos (by simp only [maxProgram, memSize, base]; omega)]
  rfl

end State

end Sys2Proof.Machine
end

