-- ==== Sys2Proof/Laws/PerInstr.lean ====
section
/-! SUPPORT. The per-instruction family OpcodePattern: the word of an instruction has the bits its row of the opcode table
fixes (30 R108). -/

namespace Sys2Proof.Laws

theorem wordA_mask_F000 (f : Nibble) (a : Addr) : wordA f a &&& 0xF000 = wordA f 0 := by
  apply BitVec.eq_of_getLsbD_eq; intro i hi
  simp only [BitVec.getLsbD_and, getLsbD_wordA]
  interval_cases i <;> simp

theorem wordXK_mask_F000 (f x : Nibble) (k : Byte) : wordXK f x k &&& 0xF000 = wordXK f 0 0 := by
  apply BitVec.eq_of_getLsbD_eq; intro i hi
  simp only [BitVec.getLsbD_and, getLsbD_wordXK]
  interval_cases i <;> simp

theorem wordXK_mask_F0FF (f x : Nibble) (k : Byte) : wordXK f x k &&& 0xF0FF = wordXK f 0 k := by
  apply BitVec.eq_of_getLsbD_eq; intro i hi
  simp only [BitVec.getLsbD_and, getLsbD_wordXK]
  interval_cases i <;> simp

theorem wordXYN_mask_F000 (f x y n : Nibble) : wordXYN f x y n &&& 0xF000 = wordXYN f 0 0 0 := by
  apply BitVec.eq_of_getLsbD_eq; intro i hi
  simp only [BitVec.getLsbD_and, getLsbD_wordXYN]
  interval_cases i <;> simp

theorem wordXYN_mask_F00F (f x y n : Nibble) : wordXYN f x y n &&& 0xF00F = wordXYN f 0 0 n := by
  apply BitVec.eq_of_getLsbD_eq; intro i hi
  simp only [BitVec.getLsbD_and, getLsbD_wordXYN]
  interval_cases i <;> simp

theorem wordXYN_mask_FFF0 (f x y n : Nibble) : wordXYN f x y n &&& 0xFFF0 = wordXYN f x y 0 := by
  apply BitVec.eq_of_getLsbD_eq; intro i hi
  simp only [BitVec.getLsbD_and, getLsbD_wordXYN]
  interval_cases i <;> simp

/-- The word of the instruction matches the instruction's row of the opcode table. -/
def OpcodePattern.Statement (i : Instr) : Prop := i.row.matchesWord (encode i) = true

/-- To match a row is to have its pattern under its mask. -/
theorem matches_of_mask (r : OpcodeRow) (w : Word) (h : w &&& r.mask = r.pattern) : r.matchesWord w = true := by
  simp [OpcodeRow.matchesWord, h]

theorem OpcodePattern.cls : OpcodePattern.Statement .cls :=
  matches_of_mask _ _ rfl
theorem OpcodePattern.ret : OpcodePattern.Statement .ret :=
  matches_of_mask _ _ rfl
theorem OpcodePattern.jp (a : Addr) : OpcodePattern.Statement (.jp a) :=
  matches_of_mask _ _ ((wordA_mask_F000 ..).trans rfl)
theorem OpcodePattern.call (a : Addr) : OpcodePattern.Statement (.call a) :=
  matches_of_mask _ _ ((wordA_mask_F000 ..).trans rfl)
theorem OpcodePattern.seImm (a : Nibble) (b : Byte) : OpcodePattern.Statement (.seImm a b) :=
  matches_of_mask _ _ ((wordXK_mask_F000 ..).trans rfl)
theorem OpcodePattern.sneImm (a : Nibble) (b : Byte) : OpcodePattern.Statement (.sneImm a b) :=
  matches_of_mask _ _ ((wordXK_mask_F000 ..).trans rfl)
theorem OpcodePattern.seReg (a : Nibble) (b : Nibble) : OpcodePattern.Statement (.seReg a b) :=
  matches_of_mask _ _ ((wordXYN_mask_F00F ..).trans rfl)
theorem OpcodePattern.ldImm (a : Nibble) (b : Byte) : OpcodePattern.Statement (.ldImm a b) :=
  matches_of_mask _ _ ((wordXK_mask_F000 ..).trans rfl)
theorem OpcodePattern.addImm (a : Nibble) (b : Byte) : OpcodePattern.Statement (.addImm a b) :=
  matches_of_mask _ _ ((wordXK_mask_F000 ..).trans rfl)
theorem OpcodePattern.ldReg (a : Nibble) (b : Nibble) : OpcodePattern.Statement (.ldReg a b) :=
  matches_of_mask _ _ ((wordXYN_mask_F00F ..).trans rfl)
theorem OpcodePattern.orReg (a : Nibble) (b : Nibble) : OpcodePattern.Statement (.orReg a b) :=
  matches_of_mask _ _ ((wordXYN_mask_F00F ..).trans rfl)
theorem OpcodePattern.andReg (a : Nibble) (b : Nibble) : OpcodePattern.Statement (.andReg a b) :=
  matches_of_mask _ _ ((wordXYN_mask_F00F ..).trans rfl)
theorem OpcodePattern.xorReg (a : Nibble) (b : Nibble) : OpcodePattern.Statement (.xorReg a b) :=
  matches_of_mask _ _ ((wordXYN_mask_F00F ..).trans rfl)
theorem OpcodePattern.addReg (a : Nibble) (b : Nibble) : OpcodePattern.Statement (.addReg a b) :=
  matches_of_mask _ _ ((wordXYN_mask_F00F ..).trans rfl)
theorem OpcodePattern.sub (a : Nibble) (b : Nibble) : OpcodePattern.Statement (.sub a b) :=
  matches_of_mask _ _ ((wordXYN_mask_F00F ..).trans rfl)
theorem OpcodePattern.shr (a : Nibble) (b : Nibble) : OpcodePattern.Statement (.shr a b) :=
  matches_of_mask _ _ ((wordXYN_mask_F00F ..).trans rfl)
theorem OpcodePattern.subn (a : Nibble) (b : Nibble) : OpcodePattern.Statement (.subn a b) :=
  matches_of_mask _ _ ((wordXYN_mask_F00F ..).trans rfl)
theorem OpcodePattern.shl (a : Nibble) (b : Nibble) : OpcodePattern.Statement (.shl a b) :=
  matches_of_mask _ _ ((wordXYN_mask_F00F ..).trans rfl)
theorem OpcodePattern.sneReg (a : Nibble) (b : Nibble) : OpcodePattern.Statement (.sneReg a b) :=
  matches_of_mask _ _ ((wordXYN_mask_F00F ..).trans rfl)
theorem OpcodePattern.ldI (a : Addr) : OpcodePattern.Statement (.ldI a) :=
  matches_of_mask _ _ ((wordA_mask_F000 ..).trans rfl)
theorem OpcodePattern.jpV0 (a : Addr) : OpcodePattern.Statement (.jpV0 a) :=
  matches_of_mask _ _ ((wordA_mask_F000 ..).trans rfl)
theorem OpcodePattern.rnd (a : Nibble) (b : Byte) : OpcodePattern.Statement (.rnd a b) :=
  matches_of_mask _ _ ((wordXK_mask_F000 ..).trans rfl)
theorem OpcodePattern.drw (a : Nibble) (b : Nibble) (c : Nibble) : OpcodePattern.Statement (.drw a b c) :=
  matches_of_mask _ _ ((wordXYN_mask_F000 ..).trans rfl)
theorem OpcodePattern.skp (a : Nibble) : OpcodePattern.Statement (.skp a) :=
  matches_of_mask _ _ ((wordXK_mask_F0FF ..).trans rfl)
theorem OpcodePattern.sknp (a : Nibble) : OpcodePattern.Statement (.sknp a) :=
  matches_of_mask _ _ ((wordXK_mask_F0FF ..).trans rfl)
theorem OpcodePattern.ldVxDt (a : Nibble) : OpcodePattern.Statement (.ldVxDt a) :=
  matches_of_mask _ _ ((wordXK_mask_F0FF ..).trans rfl)
theorem OpcodePattern.ldVxK (a : Nibble) : OpcodePattern.Statement (.ldVxK a) :=
  matches_of_mask _ _ ((wordXK_mask_F0FF ..).trans rfl)
theorem OpcodePattern.ldDtVx (a : Nibble) : OpcodePattern.Statement (.ldDtVx a) :=
  matches_of_mask _ _ ((wordXK_mask_F0FF ..).trans rfl)
theorem OpcodePattern.ldStVx (a : Nibble) : OpcodePattern.Statement (.ldStVx a) :=
  matches_of_mask _ _ ((wordXK_mask_F0FF ..).trans rfl)
theorem OpcodePattern.addIVx (a : Nibble) : OpcodePattern.Statement (.addIVx a) :=
  matches_of_mask _ _ ((wordXK_mask_F0FF ..).trans rfl)
theorem OpcodePattern.ldFVx (a : Nibble) : OpcodePattern.Statement (.ldFVx a) :=
  matches_of_mask _ _ ((wordXK_mask_F0FF ..).trans rfl)
theorem OpcodePattern.ldBVx (a : Nibble) : OpcodePattern.Statement (.ldBVx a) :=
  matches_of_mask _ _ ((wordXK_mask_F0FF ..).trans rfl)
theorem OpcodePattern.ldMemVx (a : Nibble) : OpcodePattern.Statement (.ldMemVx a) :=
  matches_of_mask _ _ ((wordXK_mask_F0FF ..).trans rfl)
theorem OpcodePattern.ldVxMem (a : Nibble) : OpcodePattern.Statement (.ldVxMem a) :=
  matches_of_mask _ _ ((wordXK_mask_F0FF ..).trans rfl)
theorem OpcodePattern.low : OpcodePattern.Statement .low :=
  matches_of_mask _ _ rfl
theorem OpcodePattern.high : OpcodePattern.Statement .high :=
  matches_of_mask _ _ rfl
theorem OpcodePattern.scd (a : Nibble) : OpcodePattern.Statement (.scd a) :=
  matches_of_mask _ _ ((wordXYN_mask_FFF0 ..).trans rfl)
theorem OpcodePattern.scr : OpcodePattern.Statement .scr :=
  matches_of_mask _ _ rfl
theorem OpcodePattern.scl : OpcodePattern.Statement .scl :=
  matches_of_mask _ _ rfl

end Sys2Proof.Laws
end

