-- ==== Sys2Proof/Laws/Sprite.lean ====
section
/-! SUPPORT. What the blitter can do, said once: which pixels a run of sprite bits inverts, and when it records a
collision (44 R200 to R203). -/

namespace Sys2Proof.Machine

/-- One of the first `k` bits of a row that starts at column `px` is set and falls on column `c`. -/
def RowSets (w px : Nat) (row : Byte) (k c : Nat) : Prop :=
  ∃ b, b < k ∧ row.getLsbD (7 - b) = true ∧ (px + b) % w = c

/-- Some set bit of the rows `l`, drawn from row `py` and column `px`, falls on pixel (r, c). -/
def RowsSet (h w px py : Nat) (l : List Byte) (r c : Nat) : Prop :=
  ∃ k, k < l.length ∧ (py + k) % h = r ∧ RowSets w px (l.getD k 0) 8 c

/-- `t'` is `t` with exactly the pixels of `hits` inverted, a collision recorded if one of them was lit. -/
def BlitOf (t t' : Blit) (hits : Nat → Nat → Prop) : Prop :=
  t'.disp.mode = t.disp.mode ∧
    (∀ r c, hits r c → t'.disp.pixel r c = !t.disp.pixel r c) ∧
    (∀ r c, ¬ hits r c → t'.disp.pixel r c = t.disp.pixel r c) ∧
    (t'.col = true ↔ t.col = true ∨ ∃ r c, hits r c ∧ t.disp.pixel r c = true)

theorem Mode.height_pos (m : Mode) : 0 < m.height := by cases m <;> decide

theorem Mode.width_pos (m : Mode) : 0 < m.width := by cases m <;> decide

theorem Mode.width_ge (m : Mode) : 64 ≤ m.width := by cases m <;> decide

theorem Mode.height_ge (m : Mode) : 32 ≤ m.height := by cases m <;> decide

/-- Nothing drawn changes nothing. -/
theorem BlitOf.refl (t : Blit) {hits : Nat → Nat → Prop} (h : ∀ r c, ¬ hits r c) : BlitOf t t hits :=
  ⟨rfl, fun r c e => absurd e (h r c), fun _ _ _ => rfl, by simp [h]⟩

/-- Two parts that share no pixel, one drawn after the other, are the two together. -/
theorem BlitOf.trans {t u v : Blit} {p q hits : Nat → Nat → Prop} (h₁ : BlitOf t u p) (h₂ : BlitOf u v q)
    (hd : ∀ r c, p r c → ¬ q r c) (hh : ∀ r c, hits r c ↔ p r c ∨ q r c) : BlitOf t v hits := by
  obtain ⟨m₁, a₁, b₁, c₁⟩ := h₁
  obtain ⟨m₂, a₂, b₂, c₂⟩ := h₂
  refine ⟨m₂.trans m₁, fun r c h => ?_, fun r c h => ?_, ?_⟩
  · rcases (hh r c).1 h with h | h
    · rw [b₂ r c (hd r c h), a₁ r c h]
    · rw [a₂ r c h, b₁ r c fun h' => hd r c h' h]
  · rw [hh, not_or] at h
    rw [b₂ r c h.2, b₁ r c h.1]
  · rw [c₂, c₁, or_assoc]
    apply or_congr_right
    constructor
    · rintro (⟨r, c, h, e⟩ | ⟨r, c, h, e⟩)
      · exact ⟨r, c, (hh r c).2 (.inl h), e⟩
      · exact ⟨r, c, (hh r c).2 (.inr h), by rw [← b₁ r c fun h' => hd r c h' h]; exact e⟩
    · rintro ⟨r, c, h, e⟩
      rcases (hh r c).1 h with h | h
      · exact .inl ⟨r, c, h, e⟩
      · exact .inr ⟨r, c, h, by rw [b₁ r c fun h' => hd r c h' h]; exact e⟩

/-- One set bit on one pixel of the buffer. -/
theorem Blit.hit_spec (t : Blit) (r c : Nat) (hr : r < t.disp.mode.height) (hc : c < t.disp.mode.width) :
    BlitOf t (t.hit r c) fun r' c' => r' = r ∧ c' = c := by
  refine ⟨by simp [Blit.hit], fun r' c' h => ?_, fun r' c' h => ?_, ?_⟩
  · simp only [Blit.hit, Surface.pixel_flip _ _ _ _ _ hr hc, h]; simp
  · simp only [Blit.hit, Surface.pixel_flip _ _ _ _ _ hr hc, h]; simp
  · simp [Blit.hit]

/-- One bit of a row, set or clear. -/
theorem Blit.bit_spec (t : Blit) (r px : Nat) (row : Byte) (b : Nat) (hr : r < t.disp.mode.height) :
    BlitOf t (t.bit r px row b) fun r' c' =>
      r' = r ∧ row.getLsbD (7 - b) = true ∧ (px + b) % t.disp.mode.width = c' := by
  unfold Blit.bit
  split
  · next h =>
    have e := Blit.hit_spec t r ((px + b) % t.disp.mode.width) hr (Nat.mod_lt _ t.disp.mode.width_pos)
    simpa [h, eq_comm] using e
  · next h => exact BlitOf.refl t (by simp [h])

/-- The first `k` bits of a row: they fall on distinct columns (44 R203). -/
theorem Blit.bits_spec (t : Blit) (r px : Nat) (row : Byte) (k : Nat) (hk : k ≤ 8) (hr : r < t.disp.mode.height) :
    BlitOf t (t.bits r px row k) fun r' c' => r' = r ∧ RowSets t.disp.mode.width px row k c' := by
  induction k with
  | zero => exact BlitOf.refl t (by simp [RowSets])
  | succ k ih =>
    have e := ih (by omega)
    have e' := Blit.bit_spec (t.bits r px row k) r px row k (by rw [e.1]; exact hr)
    rw [e.1] at e'
    refine e.trans e' ?_ ?_
    · rintro r' c' ⟨-, b, hb, -, hc⟩ ⟨-, -, hc'⟩
      have hw := t.disp.mode.width_ge
      have : (px + b) ≡ (px + k) [MOD t.disp.mode.width] := hc.trans hc'.symm
      have := Nat.ModEq.add_left_cancel' px this
      have := Nat.ModEq.eq_of_lt_of_lt this (by omega) (by omega)
      omega
    · intro r' c'
      simp only [RowSets, Nat.lt_succ_iff_lt_or_eq, or_and_right, exists_or, exists_eq_left, ← and_or_left]

/-- Rows of a sprite, at most as many as the buffer has: they fall on distinct rows (44 R203). -/
theorem Blit.rows_spec (t : Blit) (px py : Nat) (l : List Byte) (hl : l.length ≤ t.disp.mode.height) :
    BlitOf t (t.rows px py l) (RowsSet t.disp.mode.height t.disp.mode.width px py l) := by
  induction l generalizing t py with
  | nil => exact BlitOf.refl t (by simp [RowsSet])
  | cons row l ih =>
    have hh := t.disp.mode.height_pos
    have e := Blit.bits_spec t (py % t.disp.mode.height) px row 8 (by omega) (Nat.mod_lt _ hh)
    have e' := ih (t.bits (py % t.disp.mode.height) px row 8) (py + 1)
      (by rw [e.1]; simp only [List.length_cons] at hl; omega)
    rw [e.1] at e'
    refine e.trans e' ?_ ?_
    · rintro r c ⟨hr, -⟩ ⟨k, hk, hr', -⟩
      simp only [List.length_cons] at hl
      have : py + (1 + k) ≡ py + 0 [MOD t.disp.mode.height] := by
        rw [← Nat.add_assoc]; exact hr'.trans hr
      have := Nat.ModEq.add_left_cancel' py this
      have := Nat.ModEq.eq_of_lt_of_lt this (by omega) (by omega)
      omega
    · intro r c
      constructor
      · rintro ⟨k, hk, hr, hs⟩
        cases k with
        | zero => exact .inl ⟨by simpa using hr.symm, by simpa using hs⟩
        | succ k => exact .inr ⟨k, by simpa using hk, by rw [← hr]; congr 1; omega, by simpa using hs⟩
      · rintro (⟨hr, hs⟩ | ⟨k, hk, hr, hs⟩)
        · exact ⟨0, by simp, by simpa using hr.symm, by simpa using hs⟩
        · exact ⟨k + 1, by simpa using hk, by rw [← hr]; congr 1; omega, by simpa using hs⟩

end Sys2Proof.Machine
end

