-- ==== Sys2Proof/Tests/Slice0.lean ====
section
/-! SUPPORT. The model's own tests: well-formedness, decoding of words written out bit by bit, one step of each instruction
with results taken from spec/95_test_vectors.md (the vector's id stands at each), and witnesses that the hypotheses of the
statements can be met, at the boundary values of their clauses. -/

namespace Sys2Proof.Tests

open Sys2Proof Sys2Proof.Machine

/-! ## Helpers -/

/-- A core that a program was loaded into and that runs, all else as at construction. -/
def running : State := { State.reset with run := .running, loaded := true, ran := true }

/-- The state after one step that fetches and runs the word `w` at `pc`. -/
def after (s : State) (w : Nat) : State :=
  match step (s.withFetchWord 16 w) with
  | .next t => t
  | _ => s

/-- The state after one step. -/
def next (s : State) : State :=
  match step s with
  | .next t => t
  | _ => s

/-- The state after one instruction executed at the address `pc`. -/
def execd (i : Instr) (s : State) : State :=
  match exec i s.advancePc with
  | .next t => t
  | _ => s

/-- The default parameters with one changed. -/
def rereadParams : Params := { Params.default with aluVfOrder := .reread }
def vyParams : Params := { Params.default with shiftSource := .vy }
def reversedParams : Params := { Params.default with subnMode := .reversed }
def incrementParams : Params := { Params.default with ldstIMode := .increment }
def ignoreGlyphParams : Params := { Params.default with glyphWrite := .ignore }
def unknownParams : Params := { Params.default with bnnnMode := .unknown }
def ignoreNibbleParams : Params := { Params.default with lowNibble59 := .ignore }
def allowLowParams : Params := { Params.default with pcLowCheck := .allow }

/-! ## Well-formedness: each check refuses an ill-formed term -/

theorem test_wf_jpV0_refused : Instr.wf unknownParams (.jpV0 0x300) = false := by decide
theorem test_wf_jpV0_accepted : Instr.wf Params.default (.jpV0 0x300) = true := by decide
theorem test_wf_tick_refused : Params.wf { Params.default with tickMs := 0 } = false := by decide +kernel
theorem test_wf_tick_accepted : Params.wf Params.default = true := by decide +kernel
theorem test_wf_memory_refused :
    Memory.wf [(3, 1), (3, 2)] = false ∧ Memory.wf [(3, 0)] = false ∧ Memory.wf [(4096, 1)] = false ∧
      Memory.wf [(3, 1), (4095, 2)] = true := by decide

/-! ## Decoding: every constructor, from words written out bit by bit (30 R105, R108) -/

theorem test_decode_family_0 :
    decodeWord Params.default 0b0000_0000_1110_0000 = .ok .cls ∧
    decodeWord Params.default 0b0000_0000_1110_1110 = .ok .ret ∧
    decodeWord Params.default 0b0000_0000_1111_1110 = .ok .low ∧
    decodeWord Params.default 0b0000_0000_1111_1111 = .ok .high ∧
    decodeWord Params.default 0b0000_0000_1100_0111 = .ok (.scd 7) ∧
    decodeWord Params.default 0b0000_0000_1111_1011 = .ok .scr ∧
    decodeWord Params.default 0b0000_0000_1111_1100 = .ok .scl := by decide

theorem test_decode_jumps :
    decodeWord Params.default 0b0001_1010_1011_1100 = .ok (.jp 0xABC) ∧
    decodeWord Params.default 0b0010_0010_0001_0000 = .ok (.call 0x210) ∧
    decodeWord Params.default 0b1011_0011_0000_0001 = .ok (.jpV0 0x301) := by decide

theorem test_decode_skips :
    decodeWord Params.default 0b0011_0011_0100_0010 = .ok (.seImm 3 0x42) ∧
    decodeWord Params.default 0b0100_0011_0000_0001 = .ok (.sneImm 3 0x01) ∧
    decodeWord Params.default 0b0101_0001_0010_0000 = .ok (.seReg 1 2) ∧
    decodeWord Params.default 0b1001_0001_0010_0000 = .ok (.sneReg 1 2) := by decide

theorem test_decode_immediate :
    decodeWord Params.default 0b0110_1010_1111_1110 = .ok (.ldImm 0xA 0xFE) ∧
    decodeWord Params.default 0b0111_0001_0000_0011 = .ok (.addImm 1 3) := by decide

theorem test_decode_alu :
    decodeWord Params.default 0b1000_0001_0010_0000 = .ok (.ldReg 1 2) ∧
    decodeWord Params.default 0b1000_0001_0010_0001 = .ok (.orReg 1 2) ∧
    decodeWord Params.default 0b1000_0001_0010_0010 = .ok (.andReg 1 2) ∧
    decodeWord Params.default 0b1000_0001_0010_0011 = .ok (.xorReg 1 2) ∧
    decodeWord Params.default 0b1000_0001_0010_0100 = .ok (.addReg 1 2) ∧
    decodeWord Params.default 0b1000_0001_0010_0101 = .ok (.sub 1 2) ∧
    decodeWord Params.default 0b1000_0001_0010_0110 = .ok (.shr 1 2) ∧
    decodeWord Params.default 0b1000_0001_0010_0111 = .ok (.subn 1 2) ∧
    decodeWord Params.default 0b1000_0001_0010_1110 = .ok (.shl 1 2) := by decide

theorem test_decode_address_random_draw :
    decodeWord Params.default 0b1010_0011_0000_0001 = .ok (.ldI 0x301) ∧
    decodeWord Params.default 0b1100_0011_0000_1110 = .ok (.rnd 3 0x0E) ∧
    decodeWord Params.default 0b1101_0001_0010_0101 = .ok (.drw 1 2 5) := by decide

theorem test_decode_keys :
    decodeWord Params.default 0b1110_0101_1001_1110 = .ok (.skp 5) ∧
    decodeWord Params.default 0b1110_0101_1010_0001 = .ok (.sknp 5) := by decide

theorem test_decode_family_F :
    decodeWord Params.default 0b1111_0011_0000_0111 = .ok (.ldVxDt 3) ∧
    decodeWord Params.default 0b1111_0011_0000_1010 = .ok (.ldVxK 3) ∧
    decodeWord Params.default 0b1111_0011_0001_0101 = .ok (.ldDtVx 3) ∧
    decodeWord Params.default 0b1111_0011_0001_1000 = .ok (.ldStVx 3) ∧
    decodeWord Params.default 0b1111_0011_0001_1110 = .ok (.addIVx 3) ∧
    decodeWord Params.default 0b1111_0011_0010_1001 = .ok (.ldFVx 3) ∧
    decodeWord Params.default 0b1111_0011_0011_0011 = .ok (.ldBVx 3) ∧
    decodeWord Params.default 0b1111_0011_0101_0101 = .ok (.ldMemVx 3) ∧
    decodeWord Params.default 0b1111_0011_0110_0101 = .ok (.ldVxMem 3) := by decide

/-- EN7 to EN12: words of no row are unknown. -/
theorem test_decode_unknown :
    decodeWord Params.default 0x0000 = .error (.unknown 0x0000) ∧ decodeWord Params.default 0x00FD = .error (.unknown 0x00FD) ∧
    decodeWord Params.default 0x8128 = .error (.unknown 0x8128) ∧ decodeWord Params.default 0x5121 = .error (.unknown 0x5121) ∧
    decodeWord Params.default 0xF030 = .error (.unknown 0xF030) ∧ decodeWord Params.default 0xE000 = .error (.unknown 0xE000) ∧
    decodeWord Params.default 0x01C0 = .error (.unknown 0x01C0) := by decide

/-- The decoder takes the high byte first (20 R80), and fewer than two bytes are no instruction (30 R100). -/
theorem test_decode_bytes :
    decode Params.default [0x12, 0x34, 0x56] = .ok (.jp 0x234, [0x56]) ∧ decode Params.default [0x12] = .error .truncated := by
  decide

/-! ## Control (95 section 2.2) -/

/-- A big buffer with pixel (10, 100) lit. -/
def litBig : State := running.setDisp ((Surface.blank .big).flip 10 100)

/-- A small buffer with pixel (0, 0) lit. -/
def litSmall : State := running.setDisp ((Surface.blank .small).flip 0 0)

/-- CT1. -/
theorem test_cls : litBig.disp.pixel 10 100 = true ∧ (after litBig 0x00E0).disp.pixel 10 100 = false ∧
    (after litBig 0x00E0).mode = .big ∧ (after litBig 0x00E0).out = [] := by decide
/-- CT2. -/
theorem test_ret :
    let s : State := { running with sp := 2, stack := running.stack.set 1 0x40A }
    (after s 0x00EE).pc = 0x40A ∧ (after s 0x00EE).sp = 1 ∧ (after s 0x00EE).stack[1] = 0x40A := by decide
/-- CT3. -/
theorem test_ret_underflow :
    (after (running.setPc 0x300) 0x00EE).fatal = some ⟨.stackUnderflow, 0x300, some 0x00EE, none⟩ ∧
    (after (running.setPc 0x300) 0x00EE).pc = 0x300 ∧ (after (running.setPc 0x300) 0x00EE).run = .stopped := by decide
/-- CT4. -/
theorem test_jp : (after running 0x1ABC).pc = 0xABC := by decide
/-- CT6. -/
theorem test_call : (after (running.setPc 0x204) 0x2210).pc = 0x210 ∧ (after (running.setPc 0x204) 0x2210).sp = 1 ∧
    (after (running.setPc 0x204) 0x2210).stack[0] = 0x206 := by decide
/-- CT7. -/
theorem test_call_overflow :
    let s : State := { running with sp := 16 }
    (after s 0x2300).fatal = some ⟨.stackOverflow, 0x200, some 0x2300, none⟩ ∧ (after s 0x2300).sp = 16 := by decide
/-- CT9. -/
theorem test_seImm : (after (running.setReg 3 0x42) 0x3342).pc = 0x204 ∧ (after (running.setReg 3 0x42) 0x3343).pc = 0x202 := by
  decide
/-- CT10. -/
theorem test_sneImm : (after (running.setReg 3 0x42) 0x4342).pc = 0x202 ∧ (after (running.setReg 3 0x42) 0x4300).pc = 0x204 := by
  decide
/-- CT11. -/
theorem test_seReg :
    let s := ((running.setReg 1 7).setReg 2 7).setPc 0x300
    (after s 0x5120).pc = 0x304 := by decide
/-- CT12. -/
theorem test_sneReg :
    let s := ((running.setReg 1 7).setReg 2 8).setPc 0x300
    (after s 0x9120).pc = 0x304 ∧ (after s 0x9110).pc = 0x302 := by decide
/-- CT13: a skip past the end of memory is no fault. -/
theorem test_skip_past_end : (after (running.setPc 0xFFC) 0x3000).pc = 0x1000 ∧
    (after (running.setPc 0xFFC) 0x3000).fatal = none := by decide

/-! ## Register immediate and ALU (95 sections 2.3, 2.4) -/

/-- RI1. -/
theorem test_ldImm : (after running 0x6AFF).reg 0xA = 0xFF := by decide
/-- RI2. -/
theorem test_addImm :
    let s := (running.setReg 1 0xFF).setReg 0xF 0x55
    (after s 0x7101).reg 1 = 0 ∧ (after s 0x7101).reg 0xF = 0x55 := by decide
/-- AL1. -/
theorem test_ldReg : (after (running.setReg 2 9) 0x8120).reg 1 = 9 := by decide
/-- AL3. -/
theorem test_orReg :
    let s := ((running.setReg 1 0x0F).setReg 2 0xF0).setReg 0xF 0x77
    (after s 0x8121).reg 1 = 0xFF ∧ (after s 0x8121).reg 0xF = 0x77 := by decide
/-- AL4. -/
theorem test_andReg : (after ((running.setReg 1 0x3C).setReg 2 0x0F) 0x8122).reg 1 = 0x0C := by decide
/-- AL5. -/
theorem test_xorReg : (after (running.setReg 1 0x5A) 0x8113).reg 1 = 0 := by decide
/-- W3. -/
theorem test_addReg :
    let s := (running.setReg 0 200).setReg 1 100
    (after s 0x8014).reg 0 = 44 ∧ (after s 0x8014).reg 0xF = 1 := by decide
/-- AL9: the flag is the second operand. -/
theorem test_addReg_vf :
    let s := (running.setReg 1 0x64).setReg 0xF 0xC8
    (after s 0x81F4).reg 1 = 0x2C ∧ (after { s with params := rereadParams } 0x81F4).reg 1 = 0x65 := by decide
/-- W4. -/
theorem test_sub :
    let s := (running.setReg 0xA 3).setReg 0xB 5
    (after s 0x8AB5).reg 0xA = 254 ∧ (after s 0x8AB5).reg 0xF = 0 := by decide
/-- AL13: the flag is the destination. -/
theorem test_sub_vf :
    let s := (running.setReg 0xF 5).setReg 1 3
    (after s 0x8F15).reg 0xF = 0x02 ∧ (after { s with params := rereadParams } 0x8F15).reg 0xF = 0xFE := by decide
/-- AL16. -/
theorem test_shr :
    let s := (running.setReg 1 0xFF).setReg 2 0x02
    (after s 0x8126).reg 1 = 0x7F ∧ (after s 0x8126).reg 0xF = 1 ∧
    (after { s with params := vyParams } 0x8126).reg 1 = 0x01 ∧ (after { s with params := vyParams } 0x8126).reg 0xF = 0 := by
  decide
/-- AL18. -/
theorem test_shr_vf :
    let s := running.setReg 0xF 0x05
    (after s 0x8FF6).reg 0xF = 0x02 ∧ (after { s with params := rereadParams } 0x8FF6).reg 0xF = 0x00 := by decide
/-- AL19. -/
theorem test_subn :
    let s := (running.setReg 1 3).setReg 2 5
    (after s 0x8127).reg 1 = 0xFE ∧ (after s 0x8127).reg 0xF = 0 ∧
    (after { s with params := reversedParams } 0x8127).reg 1 = 0x02 ∧
    (after { s with params := reversedParams } 0x8127).reg 0xF = 1 := by decide
/-- AL22. -/
theorem test_shl : (after (running.setReg 3 0x81) 0x830E).reg 3 = 0x02 ∧ (after (running.setReg 3 0x81) 0x830E).reg 0xF = 1 := by
  decide

/-! ## Address register, jump with offset, random (95 section 2.5) -/

/-- AR1. -/
theorem test_ldI : (after running 0xA300).i = 0x300 := by decide
/-- AR3. -/
theorem test_jpV0 : (after (running.setReg 0 0xFF) 0xBFFF).pc = 0x10FE := by decide
/-- AR2, second part. -/
theorem test_jpV0_unknown :
    let s : State := { running with params := unknownParams }
    (after s 0xB300).pc = 0x202 ∧ (after s 0xB300).out = [.diag .unknown 0xB300 0x200] := by decide
/-- AR6: a zero mask gives 0, whatever the draw. -/
theorem test_rnd : (after running 0xC300).draws = 1 ∧ (after running 0xC300).pc = 0x202 := by decide
theorem test_rnd_mask (s : State) : (execd (.rnd 3 0) s).reg 3 = 0 := by
  simp [execd, exec, execRnd]

/-! ## Sprites (95 section 2.6) -/

/-- A running core with one or two sprite bytes at 0x300 and I there. -/
def sprite (b c : Byte) : State := ((running.setMem ((running.mem.write 0x300 b).write 0x301 c)).setI 0x300)

/-- SP1: the right edge wraps. -/
theorem test_drw_wrap_right :
    let t := after ((sprite 0xF0 0).setReg 0 62) 0xD011
    t.disp.pixel 0 62 = true ∧ t.disp.pixel 0 63 = true ∧ t.disp.pixel 0 0 = true ∧ t.disp.pixel 0 1 = true ∧
      t.disp.pixel 0 2 = false ∧ t.disp.pixel 0 61 = false ∧ t.reg 0xF = 0 := by decide
/-- SP2: the bottom edge wraps. -/
theorem test_drw_wrap_bottom :
    let t := after ((sprite 0x80 0x80).setReg 1 31) 0xD012
    t.disp.pixel 31 0 = true ∧ t.disp.pixel 0 0 = true ∧ t.disp.pixel 1 0 = false ∧ t.reg 0xF = 0 := by decide
/-- SP3. -/
theorem test_drw_collision :
    let s := (sprite 0x80 0).setDisp litSmall.disp
    (after s 0xD011).disp.pixel 0 0 = false ∧ (after s 0xD011).reg 0xF = 1 := by decide
/-- SP5: the big mode. -/
theorem test_drw_big :
    let t := after ((((sprite 0x80 0).setDisp (Surface.blank .big)).setReg 0 130).setReg 1 70) 0xD011
    t.disp.pixel 6 2 = true ∧ t.reg 0xF = 0 := by decide
/-- SP8. -/
theorem test_drw_bounds :
    let t := after ((running.setI 0xFFE).setReg 0xF 0x33) 0xD013
    t.fatal = some ⟨.addressOutOfBounds, 0x200, some 0xD013, some 0x1000⟩ ∧ t.reg 0xF = 0x33 := by decide
/-- SP9: the coordinate is VF before the draw. -/
theorem test_drw_vf_coordinate :
    let t := after ((sprite 0x80 0).setReg 0xF 5) 0xD0F1
    t.disp.pixel 5 0 = true ∧ t.reg 0xF = 0 := by decide

/-! ## Keys (95 section 2.7) -/

/-- Key 0xA pressed, V5 = 0xA. -/
def keyA : State := { running.setReg 5 0xA with key := running.key.set 0xA true }

/-- KY1, KY2. -/
theorem test_skp : (after keyA 0xE59E).pc = 0x204 ∧ (after (running.setReg 5 0xA) 0xE59E).pc = 0x202 := by decide
/-- KY4. -/
theorem test_skp_range :
    (after (running.setReg 5 0x10) 0xE59E).fatal = some ⟨.keyIndexOutOfRange, 0x200, some 0xE59E, some 0x10⟩ ∧
    (after (running.setReg 5 0x10) 0xE59E).pc = 0x200 := by decide
/-- KY3. -/
theorem test_sknp : (after (running.setReg 5 0xA) 0xE5A1).pc = 0x204 ∧ (after keyA 0xE5A1).pc = 0x202 := by decide
/-- KY5. -/
theorem test_sknp_range :
    (after (running.setReg 5 0xFF) 0xE5A1).fatal = some ⟨.keyIndexOutOfRange, 0x200, some 0xE5A1, some 0xFF⟩ := by decide

/-! ## The F family (95 section 2.8) -/

/-- FX1. -/
theorem test_ldVxDt : (after (running.setDt 0x3C) 0xF307).reg 3 = 0x3C := by decide
/-- FX2. -/
theorem test_ldVxK : (after running 0xF20A).waiting = some ⟨2, 0x200⟩ ∧ (after running 0xF20A).pc = 0x202 := by decide
/-- FX6: the poll takes the lowest pressed key. -/
theorem test_ldVxK_poll :
    let s : State := { running with key := (running.key.set 3 true).set 0xA true }
    (next (after s 0xF20A)).reg 2 = 3 ∧ (next (after s 0xF20A)).waiting = none := by decide
/-- FX7. -/
theorem test_ldDtVx : (after (running.setReg 1 60) 0xF115).dt = 60 := by decide
/-- FX8. -/
theorem test_ldStVx : (after (running.setSt 5) 0xF118).st = 0 ∧ (after (running.setSt 5) 0xF118).out = [] := by decide
/-- FX10. -/
theorem test_addIVx : (after ((running.setI 0xFFFF).setReg 1 1) 0xF11E).i = 0 := by decide
/-- FX13: only the low nibble selects. -/
theorem test_ldFVx : (after (running.setReg 0 0x3A) 0xF029).i = 0x032 := by decide
/-- FX14. -/
theorem test_ldBVx :
    let t := after ((running.setReg 0xC 156).setI 0x300) 0xFC33
    t.mem.read 0x300 = 1 ∧ t.mem.read 0x301 = 5 ∧ t.mem.read 0x302 = 6 ∧ t.i = 0x300 := by decide
/-- FX17. -/
theorem test_ldBVx_glyph :
    let s := ((running.setReg 0xC 156).setI 0x4E)
    (after s 0xFC33).fatal = some ⟨.glyphWrite, 0x200, some 0xFC33, some 0x4E⟩ ∧
    (after { s with params := ignoreGlyphParams } 0xFC33).mem.read 0x50 = 6 ∧
    (after { s with params := ignoreGlyphParams } 0xFC33).mem.read 0x4E = 0 := by decide
/-- FX18. -/
theorem test_ldMemVx :
    let s := (running.setReg 0 0xAB).setI 0x300
    (after s 0xF055).mem.read 0x300 = 0xAB ∧ (after s 0xF055).i = 0x300 ∧
    (after { s with params := incrementParams } 0xF055).i = 0x301 := by decide
/-- FX20. -/
theorem test_ldMemVx_bounds :
    let s := (running.setReg 0 0xAB).setI 0xFF1
    (after s 0xFF55).fatal = some ⟨.addressOutOfBounds, 0x200, some 0xFF55, some 0x1000⟩ ∧
    (after s 0xFF55).mem.read 0xFF1 = 0 := by decide
/-- FX24. -/
theorem test_ldVxMem : (after ((running.setMem [(0x30F, 0x42)]).setI 0x300) 0xFF65).reg 0xF = 0x42 := by decide
/-- FX23. -/
theorem test_ldVxMem_bounds :
    (after (running.setI 0xFFE) 0xF265).fatal = some ⟨.addressOutOfBounds, 0x200, some 0xF265, some 0x1000⟩ := by decide

/-! ## Display mode (95 section 2.9) -/

/-- DM3, DM4. -/
theorem test_low :
    (after litBig 0x00FE).mode = .small ∧ (after litBig 0x00FE).out = [.geometry 64 32] ∧
    (after litSmall 0x00FE).disp.pixel 0 0 = true ∧ (after litSmall 0x00FE).out = [] := by decide
/-- DM1, DM2. -/
theorem test_high :
    (after litSmall 0x00FF).mode = .big ∧ (after litSmall 0x00FF).disp.pixel 0 0 = false ∧
    (after litSmall 0x00FF).out = [.geometry 128 64] ∧ (after litBig 0x00FF).disp.pixel 10 100 = true := by decide
/-- DM5. -/
theorem test_scd : (after running 0x00C4).out = [.diag .unsupported 0x00C4 0x200] ∧ (after running 0x00C4).pc = 0x202 := by decide
theorem test_scr : (after running 0x00FB).out = [.diag .unsupported 0x00FB 0x200] := by decide
theorem test_scl : (after running 0x00FC).out = [.diag .unsupported 0x00FC 0x200] := by decide

/-! ## Fetch (95 section 2.1) -/

/-- EN1: big-endian, through memory. -/
theorem test_fetch_big_endian : (next (running.setMem [(0x200, 0x12), (0x201, 0x34)])).pc = 0x234 := by decide
/-- EN2: an odd pc. -/
theorem test_fetch_odd :
    let s := (running.setMem [(0x201, 0x60), (0x202, 0x07)]).setPc 0x201
    (next s).reg 0 = 7 ∧ (next s).pc = 0x203 := by decide
/-- EN5. -/
theorem test_fetch_bounds :
    (next (running.setPc 0xFFF)).fatal = some ⟨.addressOutOfBounds, 0xFFF, none, some 0x1000⟩ := by decide
/-- EN6. -/
theorem test_fetch_low :
    (next (running.setPc 0x100)).fatal = some ⟨.illegalPc, 0x100, none, some 0x100⟩ ∧
    (next { running.setPc 0x100 with params := allowLowParams }).out = [.diag .unknown 0x0000 0x100] := by decide
/-- EN14. -/
theorem test_stop_before_fetch :
    let s : State := { running with run := .stopping, stopReq := true }
    (next s).run = .stopped ∧ (next s).stopReq = false ∧ (next s).pc = 0x200 := by decide

/-! ## Host ports (95 sections 2.10, 2.11) -/

/-- TM1. -/
theorem test_timer :
    let t := next { running with dt := 10, st := 3, turns := [.timeStep 100] }
    t.acc = 4 ∧ t.dt = 4 ∧ t.st = 0 ∧ t.out = [.beep] := by decide +kernel
/-- TM5: no beep above 0. -/
theorem test_timer_no_beep :
    let t := next { running with st := 8, turns := [.timeStep 112] }
    t.st = 1 ∧ t.out = [] := by decide +kernel
/-- LC1. -/
theorem test_start_without_program : (next { State.reset with turns := [.start] }).run = .stopped := by decide
/-- LC10: a Restart cancels a key wait. -/
theorem test_restart_cancels_wait :
    let s : State := { running with waiting := some ⟨2, 0x204⟩, turns := [.restart, .engine] }
    (next (next s)).pc = 0x204 ∧ (next (next s)).run = .stopped ∧ (next (next (next s))).run = .running ∧
      (next (next (next s))).pc = 0x200 := by decide
/-- W1, EN1: Load lays out the glyphs and the program. -/
theorem test_load :
    let t := next { State.reset with turns := [.load [0x12, 0x34]] }
    t.mem.read 0 = 0xF0 ∧ t.mem.read 79 = 0x80 ∧ t.mem.read 80 = 0 ∧ t.mem.read 0x201 = 0x34 ∧ t.loaded = true := by decide

/-! ## Witnesses: the hypotheses of the statements can be met -/

/-- A running core about to fetch `w` at 0x200. -/
def fetching (w : Nat) : State := running.withFetchWord 16 w

theorem test_engineTurn_empty (w : Nat) : (fetching w).EngineTurn (fetching w) := .inl ⟨rfl, rfl, rfl⟩

theorem test_engineTurn_listed : State.EngineTurn { running with turns := [.engine, .stop] } { running with turns := [.stop] } :=
  .inr ⟨[.stop], rfl, rfl⟩

theorem test_witness_DecodeInvertsEncode :
    Instr.wf Params.default (.jpV0 0xFFF) = true ∧ Instr.wf unknownParams (.drw 0xF 0 0xF) = true := by decide

theorem test_witness_EncodeInvertsDecode :
    decodeWord ignoreNibbleParams 0x512A = .ok (.seReg 1 2) ∧ decodeWord Params.default 0xBFFF = .ok (.jpV0 0xFFF) := by decide

theorem test_witness_DecodingFollowsTheOpcodeMap :
    (∃ r ∈ opcodeRows Params.default, r.matchesWord 0x00C7 = true) ∧
    (∀ r ∈ opcodeRows unknownParams, r.matchesWord 0xB123 = false) ∧
    (unknownParams.bnnnMode = .unknown ∧ unknownParams.lowNibble59 = Params.default.lowNibble59) ∧
    (ignoreNibbleParams.lowNibble59 = .ignore ∧ Params.default.lowNibble59 = .strict ∧ (0xF : Nibble) ≠ 0) := by decide

theorem test_witness_StepRunsDecodedInstruction :
    (fetching 0x6A02).Ready ∧ (fetching 0x6A02).FetchLegal ∧
    decode (fetching 0x6A02).params [(fetching 0x6A02).mem.read (fetching 0x6A02).pc.toNat,
      (fetching 0x6A02).mem.read ((fetching 0x6A02).pc.toNat + 1)] = .ok (.ldImm 0xA 2, []) := by
  unfold State.Ready State.FetchLegal; decide

theorem test_witness_UnknownOpcodeOnlyDiagnoses :
    (fetching 0x00FD).Ready ∧ (fetching 0x00FD).FetchLegal ∧
    wordOfBytes ((fetching 0x00FD).mem.read (fetching 0x00FD).pc.toNat)
      ((fetching 0x00FD).mem.read ((fetching 0x00FD).pc.toNat + 1)) = 0x00FD ∧
    decodeWord (fetching 0x00FD).params 0x00FD = .error (.unknown 0x00FD) := by
  unfold State.Ready State.FetchLegal; decide

/-- One state for each clause: `pc` at 0x1FF, 0xFFF, 0x1000 and 0xFFFF. -/
theorem test_witness_FetchFaultsAreFatal :
    (running.setPc 0x1FF).Ready ∧ (running.setPc 0x1FF).params.pcLowCheck = .fault ∧ (running.setPc 0x1FF).pc.toNat < 0x200 ∧
    4096 ≤ (running.setPc 0x1000).pc.toNat ∧ 4096 ≤ (running.setPc 0xFFFF).pc.toNat ∧ (running.setPc 0xFFF).pc.toNat = 4095 := by
  unfold State.Ready; decide

theorem test_witness_StopRequestWinsOverFetch :
    let s : State := { running with run := .stopping, stopReq := true }
    s.run ≠ .stopped ∧ s.fatal = none ∧ s.waiting = none ∧ s.stopReq = true := by decide

theorem test_witness_StoppedEngineDoesNothing :
    State.reset.run = .stopped ∧ ({ running with fatal := some ⟨.illegalPc, 0, none, none⟩ } : State).fatal ≠ none ∧
      State.reset.EngineTurn State.reset :=
  ⟨rfl, by decide, .inl ⟨rfl, rfl, rfl⟩⟩

/-- The three clauses: a Stop request, key 15 the only one pressed, no key pressed. -/
theorem test_witness_PollEndsKeyWait :
    let s : State := { running with waiting := some ⟨2, 0x200⟩ }
    let k : State := { s with key := s.key.set 15 true }
    s.run ≠ .stopped ∧ s.fatal = none ∧ ({ s with stopReq := true } : State).stopReq = true ∧
    (k.stopReq = false ∧ k.key[15] = true ∧ ∀ j : Fin 16, j < 15 → k.key[j] = false) ∧
    (s.stopReq = false ∧ ∀ j : Fin 16, s.key[j] = false) := by decide

theorem test_witness_SelfJumpChangesNothing :
    (fetching 0x1200).Ready ∧ (fetching 0x1200).FetchLegal ∧ (fetching 0x1200).AtSelfJump = true := by
  unfold State.Ready State.FetchLegal; decide

/-- `sp` at 1, 16 and 0. -/
theorem test_witness_RetPopsOrUnderflows :
    ({ running with sp := 1 } : State).sp.val = (0 : Fin 16).val + 1 ∧
    ({ running with sp := 16 } : State).sp.val = (15 : Fin 16).val + 1 ∧ running.sp = 0 := by decide

theorem test_witness_JumpsSetPc :
    running.params.bnnnMode = .jumpV0 ∧ ({ running with params := unknownParams } : State).params.bnnnMode = .unknown := by decide

/-- `sp` at 0, 15 and 16. -/
theorem test_witness_CallPushesOrOverflows :
    running.sp.val = (0 : Fin 16).val ∧ ({ running with sp := 15 } : State).sp.val = (15 : Fin 16).val ∧
    ({ running with sp := 16 } : State).sp.val = 16 := by decide

theorem test_witness_CallThenReturnResumes : ({ running with sp := 15 } : State).sp.val < 16 := by decide

theorem test_witness_ConditionalSkips :
    running.reg 3 = 0 ∧ running.reg 3 ≠ 0xFF ∧ running.reg 3 = running.reg 4 ∧
    (running.setReg 3 1).reg 3 ≠ (running.setReg 3 1).reg 4 := by decide

/-- Both orders of the flag write, and a flag of 1 and of 0. -/
theorem test_witness_AluEffect :
    running.params.aluVfOrder = .sampled ∧ ({ running with params := rereadParams } : State).params.aluVfOrder = .reread ∧
    255 < (255 : Byte).toNat + (1 : Byte).toNat ∧ ¬ 255 < (255 : Byte).toNat + (0 : Byte).toNat := by decide

theorem test_witness_SubnByMode :
    running.params.subnMode = .asSource ∧ ({ running with params := reversedParams } : State).params.subnMode = .reversed := by
  decide

theorem test_witness_ShiftsByOne :
    (running.params.shiftSource = .vx ∧ (1 : Nibble) = 1) ∧
    (({ running with params := vyParams } : State).params.shiftSource = .vy ∧ (2 : Nibble) = 2) := by decide

/-- Key numbers 15 and 16. -/
theorem test_witness_KeyTests :
    ((running.setReg 5 15).reg 5).toNat = (15 : Fin 16).val ∧ 15 < ((running.setReg 5 16).reg 5).toNat ∧
    keyA.key[(0xA : Fin 16)] = true ∧ running.key[(0xA : Fin 16)] = false := by decide

/-- I at 80 and 4093; at 78 where stores into the glyph table are dropped; at 4094; at 79 where they raise. -/
theorem test_witness_BcdStoresDigits :
    (running.setI 80).mem.wf = true ∧ (running.setI 80).i.toNat + 2 < 4096 ∧ 80 ≤ (running.setI 80).i.toNat ∧
    (running.setI 4093).i.toNat + 2 < 4096 ∧ running.params.glyphWrite = .fault ∧
    ({ running.setI 78 with params := ignoreGlyphParams } : State).params.glyphWrite ≠ .fault ∧
    ¬ 80 ≤ (running.setI 78).i.toNat ∧ 80 ≤ (running.setI 78).i.toNat + 2 ∧
    4096 ≤ (running.setI 4094).i.toNat + 2 ∧ (running.setI 79).i.toNat < 80 := by decide

/-- I at 80, at 0xFF0 with x = 15, at 0xFF1 with x = 15, at 0; both values of LDST_I_MODE. -/
theorem test_witness_RegistersAreStored :
    (running.setI 0xFF0).mem.wf = true ∧ (running.setI 0xFF0).i.toNat + (15 : Nibble).toNat < 4096 ∧
    (running.params.glyphWrite = .fault ∧ 80 ≤ (running.setI 80).i.toNat) ∧ running.params.ldstIMode = .unchanged ∧
    ({ running with params := incrementParams } : State).params.ldstIMode = .increment ∧ (15 : Nibble) ≤ 15 ∧
    4096 ≤ (running.setI 0xFF1).i.toNat + (15 : Nibble).toNat ∧ (running.setI 0).i.toNat < 80 := by decide

theorem test_witness_RegistersAreLoaded :
    (running.setI 0xFF0).i.toNat + (15 : Nibble).toNat < 4096 ∧ (0 : Nibble) ≤ 14 ∧ ¬ (15 : Nibble) ≤ 14 ∧
    4096 ≤ (running.setI 0xFF1).i.toNat + (15 : Nibble).toNat ∧ 4096 ≤ (running.setI 0xFFFF).i.toNat + (0 : Nibble).toNat := by
  decide

/-- A sprite that ends at the last byte of memory, one that leaves it, a pixel a sprite sets, and one it does not. -/
theorem test_witness_DrwXorsSprite :
    ((running.setI 0xFF1).i.toNat + (15 : Nibble).toNat ≤ 4096 ∧
      (2 : Nibble) ≠ 0 ∧ 4096 < (running.setI 4095).i.toNat + (2 : Nibble).toNat) ∧
    (sprite 0x80 0).SpriteSets 0 1 1 0 0 ∧ litSmall.disp.pixel 0 0 = true ∧ ¬ running.SpriteSets 0 1 0 0 0 :=
  ⟨by decide, ⟨0, 0, by decide⟩, by decide, by rintro ⟨k, b, hk, -⟩; exact absurd hk (Nat.not_lt_zero k)⟩

/-- The second draw of the same sprite, from the state after the first, on a blank buffer: VF becomes 1. -/
theorem test_witness_DrawingTwiceRestores :
    let s := sprite 0x80 0
    let t := execd (.drw 0 1 1) s
    s.i.toNat + (1 : Nibble).toNat ≤ 4096 ∧ t.i = s.i ∧ t.mem = s.mem ∧ t.reg 0 = s.reg 0 ∧ t.reg 1 = s.reg 1 ∧
      t.reg 0xF = 0 ∧ (execd (.drw 0 1 1) t).reg 0xF = 1 := by decide

/-- Where every pixel of the sprite is lit before, the second draw meets no lit pixel: R200 gives VF = 0 (log entry 18). -/
theorem test_drawing_twice_on_lit_pixels :
    let s := (sprite 0x80 0).setDisp litSmall.disp
    let t := execd (.drw 0 1 1) s
    t.reg 0xF = 1 ∧ t.disp.pixel 0 0 = false ∧ (execd (.drw 0 1 1) t).reg 0xF = 0 ∧
      (execd (.drw 0 1 1) t).disp.pixel 0 0 = true := by decide

/-- SP1 as a second equal draw: over its four pixels, all lit, a first draw leaves the clear screen, I, memory and coordinates
that SP1 starts from, and the second gives SP1's VF = 0 (log entry 18). -/
theorem test_drawing_twice_reaches_vector_sp1 :
    let start := (sprite 0xF0 0).setReg 0 62
    let lit := execd (.drw 0 1 1) start
    let t := execd (.drw 0 1 1) lit
    lit.disp.pixel 0 62 = true ∧ lit.disp.pixel 0 63 = true ∧ lit.disp.pixel 0 0 = true ∧ lit.disp.pixel 0 1 = true ∧
      t.disp = start.disp ∧ t.i = start.i ∧ t.mem = start.mem ∧ t.reg 0 = start.reg 0 ∧ t.reg 1 = start.reg 1 ∧
      (execd (.drw 0 1 1) t).reg 0xF = 0 := by decide

theorem test_witness_ModeSwitches : litBig.mode = .big ∧ litSmall.mode = .small := by decide

theorem test_witness_RegistersWrittenAsTabled :
    exec (.addReg 1 2) running = .next (execd (.addReg 1 2) (running.setPc 0x1FE)) ∧ ¬ WritesReg (.addReg 1 2) 2 :=
  ⟨rfl, by unfold WritesReg; decide⟩

theorem test_witness_OnlyStoresChangeMemory :
    let s := (running.setReg 0 7).setI 80
    s.mem.wf = true ∧ (execd (.ldMemVx 0) s).mem.read 80 ≠ s.mem.read 80 := by decide

/-- Each kind of state can change. -/
theorem test_witness_StateWritersAreAsListed :
    (execd (.ldI 1) running).i ≠ running.i ∧ (execd (.call 1) running).sp ≠ running.sp ∧
    (execd (.ldDtVx 1) (running.setReg 1 1)).dt ≠ running.dt ∧ (execd (.ldStVx 1) (running.setReg 1 1)).st ≠ running.st ∧
    (execd .cls litSmall).disp ≠ litSmall.disp ∧ (execd .high running).mode ≠ running.mode ∧
    (execd (.ldVxK 1) running).waiting ≠ running.waiting ∧ (execd (.rnd 1 1) running).draws ≠ running.draws := by decide

theorem test_witness_InstructionsLeaveTheOutsideAlone : exec (.jp 0x300) running = .next (running.setPc 0x300) := rfl

/-- The first draw meets no lit pixel and the sprite has a set bit; and SP10's zero byte. -/
theorem test_witness_SecondDrawReportsCollision :
    let s := sprite 0x80 0
    let t := execd (.drw 0 1 1) s
    let z := sprite 0 0
    let w := execd (.drw 0 1 1) z
    (s.i.toNat + (1 : Nibble).toNat ≤ 4096 ∧ t.i = s.i ∧ t.mem = s.mem ∧ t.reg 0 = s.reg 0 ∧ t.reg 1 = s.reg 1 ∧
      t.reg 0xF = 0 ∧ 0 < (1 : Nibble).toNat ∧ s.mem.read (s.i.toNat + 0) ≠ 0) ∧
    (w.mem = z.mem ∧ w.i = z.i ∧ ∀ k, k < (1 : Nibble).toNat → z.mem.read (z.i.toNat + k) = 0) := by decide

/-- With a fatal condition and without; a RET that pops, a skip taken, both modes of JP V0. -/
theorem test_witness_PcAfterEveryInstruction :
    running.fatal = none ∧ (execd .ret running).fatal ≠ none ∧ (execd .cls running).fatal = none ∧
    (execd .ret { running with sp := 1 }).fatal = none ∧ (execd (.skp 5) keyA).fatal = none ∧
    (execd (.jpV0 0x300) running).pc = 0x300 ∧
    (execd (.jpV0 0x300) { running with params := unknownParams }).pc = 0x202 := by decide

/-- A fetch fault and an instruction's fatal condition. -/
theorem test_witness_FatalConditionsArePrecise :
    ((running.setPc 0xFFF).fatal = none ∧ (next (running.setPc 0xFFF)).fatal ≠ none) ∧
    ((fetching 0x00EE).fatal = none ∧ (next (fetching 0x00EE)).fatal ≠ none) := by decide

/-- The invariant holds of a running core, and it steps. -/
theorem test_witness_EveryStepKeepsInvariant : running.Inv ∧ step { running with turns := [.stop] } = .next
    { running with turns := [], run := .stopping, stopReq := true } :=
  ⟨⟨by decide, by decide, by decide +kernel, by decide +kernel, by decide, by decide, by decide, by decide, by decide, by decide⟩,
    rfl⟩

/-- The glyph table stands in memory after a Load. -/
theorem test_witness_EveryStepKeepsGlyphTable :
    let t := next { State.reset with turns := [.load []] }
    t.loaded = true ∧ ∀ d : Fin 80, t.mem.read d.val = t.params.glyphs[d] ∧ t.image.read d.val = t.params.glyphs[d] := by
  decide +kernel

/-- A step that answers a next state, a fault and a refusal. -/
theorem test_witness_DiagnosticStateHasNoEffect :
    step State.reset = .next State.reset ∧
    step { State.reset with turns := [.setKey 16 true] } = .refused (.keyNumberOutOfRange 16) ∧
    step { State.reset with params := { Params.default with tickMs := 0 }, turns := [.timeStep 1] } =
      .fault .tickPeriodNotPositive := by
  refine ⟨rfl, rfl, ?_⟩
  have h : ¬ (1 : Rat) < 0 := by decide +kernel
  have h' : (0 : Rat) ≤ 0 := le_refl 0
  simp only [step, nextTurn, takeTurn, timePort, h, h', if_true, if_false]

/-- The longest program, and one byte more. -/
theorem test_witness_LoadResetsOrRejects :
    State.reset.run = .stopped ∧ (List.replicate 3584 (0 : Byte)).length ≤ 3584 ∧
    3584 < (List.replicate 3585 (0 : Byte)).length :=
  ⟨rfl, List.length_replicate.le, by rw [List.length_replicate]; decide⟩

theorem test_witness_StartAndStop :
    let s : State := { running with run := .stopped }
    (s.run = .stopped ∧ s.loaded = true ∧ s.fatal = none) ∧ State.reset.loaded = false ∧
    running.run = .running ∧ s.run ≠ .running := by decide

theorem test_witness_RestartFromStopped :
    let s : State := { running with run := .stopped, turns := [.restart] }
    s.turns = [.restart] ∧ s.run = .stopped ∧ s.ran = true ∧
    s.params.restartMemory = .reloadImage ∧ s.mode = .small ∧ litBig.mode = .big ∧
    ({ Params.default with restartMemory := .keep } : Params).restartMemory = .keep := by decide

theorem test_witness_RestartOfRunningCompletes :
    let s : State := { running with turns := [.restart, .engine, .restartFinish] }
    s.turns = [.restart, .engine, .restartFinish] ∧ s.run = .running ∧ s.fatal = none := by decide

/-- 100 ms are 6 ticks of 16 ms and 4 ms (W7); 0 ms are none. -/
theorem test_witness_TimerStepCountsTicks :
    (0 : Rat) ≤ 100 ∧ 0 < running.params.tickMs ∧ ((6 : Nat) : Rat) * running.params.tickMs ≤ running.acc + 100 ∧
    running.acc + 100 < (((6 : Nat) : Rat) + 1) * running.params.tickMs ∧
    ((0 : Nat) : Rat) * running.params.tickMs ≤ running.acc + 0 ∧
    running.acc + 0 < (((0 : Nat) : Rat) + 1) * running.params.tickMs := by decide +kernel

/-- Beeps and does not: ST = 6 and ST = 7 with 6 ticks. -/
theorem test_witness_TimerStepCountsTicks_beep :
    ((running.setSt 6).st ≠ 0 ∧ (running.setSt 6).st.toNat ≤ 6) ∧
    ¬ ((running.setSt 7).st ≠ 0 ∧ (running.setSt 7).st.toNat ≤ 6) := by decide

/-- W10: 15 ms and then 1 ms. -/
theorem test_witness_TimerStepsAddUp :
    (0 : Rat) < running.params.tickMs ∧ 0 ≤ running.acc ∧ (0 : Rat) ≤ 15 ∧ (0 : Rat) ≤ 1 ∧
    (next (next { running.setDt 1 with turns := [.timeStep 15, .timeStep 1] })).dt = 0 ∧
    (next { running.setDt 1 with turns := [.timeStep (15 + 1)] }).dt = 0 := by decide +kernel

theorem test_witness_KeyAndSnapshotPorts :
    (next { running with turns := [.setKey (15 : Fin 16).val true] }).key[15] = true ∧
    (next { running with turns := [.snapshot] }).out = [.snapshot running.disp] := by decide

/-- The three clauses. -/
theorem test_witness_CallsOutsideContractAreRefused : running.run ≠ .stopped ∧ 15 < 16 ∧ (-1 : Rat) < 0 :=
  ⟨by decide, by decide, by decide +kernel⟩

theorem test_witness_LoadThenStartBoots : (List.replicate 3584 (0 : Byte)).length ≤ 3584 := List.length_replicate.le

end Sys2Proof.Tests
end

section
/-! What one instruction can do, said once: it raises a fatal condition and writes nothing, or it completes
(30 R113, 60 R302). Every rule about all instructions is a case split over this. -/

namespace Sys2Proof.Machine

/-- Instruction `i`, given the state `s` with `pc` already advanced, takes no fatal condition and leaves the second state:
one constructor for each way to complete, with the checks that let it. -/
inductive Completes (s : State) : Instr → State → Prop
  | cls : Completes s .cls (s.setDisp (Surface.blank s.mode))
  | ret (h : s.sp ≠ 0) : Completes s .ret (s.dropTop.setPc s.top)
  | jp (nnn) : Completes s (.jp nnn) (s.setPc (zextAddr nnn))
  | call (nnn) (h : s.sp.val < 16) : Completes s (.call nnn) ((s.push s.pc h).setPc (zextAddr nnn))
  | seImm (x kk) : Completes s (.seImm x kk) (s.skipIf (s.reg x == kk))
  | sneImm (x kk) : Completes s (.sneImm x kk) (s.skipIf (s.reg x != kk))
  | seReg (x y) : Completes s (.seReg x y) (s.skipIf (s.reg x == s.reg y))
  | ldImm (x kk) : Completes s (.ldImm x kk) (s.setReg x kk)
  | addImm (x kk) : Completes s (.addImm x kk) (s.setReg x (s.reg x + kk))
  | ldReg (x y) : Completes s (.ldReg x y) (s.setReg x (s.reg y))
  | orReg (x y) : Completes s (.orReg x y) (s.setReg x (s.reg x ||| s.reg y))
  | andReg (x y) : Completes s (.andReg x y) (s.setReg x (s.reg x &&& s.reg y))
  | xorReg (x y) : Completes s (.xorReg x y) (s.setReg x (s.reg x ^^^ s.reg y))
  | addReg (x y) : Completes s (.addReg x y) (s.writeFlagAndResult x x y addFlag addResult)
  | sub (x y) : Completes s (.sub x y) (s.writeFlagAndResult x x y subFlag subResult)
  | shr (x y) : Completes s (.shr x y)
      (s.writeFlagAndResult x (shiftSrc s.params x y) (shiftSrc s.params x y) (fun b _ => shrFlag b) (fun b _ => shrResult b))
  | subn (x y) : Completes s (.subn x y) (s.writeFlagAndResult x x y (subnFlag s.params) (subnResult s.params))
  | shl (x y) : Completes s (.shl x y)
      (s.writeFlagAndResult x (shiftSrc s.params x y) (shiftSrc s.params x y) (fun b _ => shlFlag b) (fun b _ => shlResult b))
  | sneReg (x y) : Completes s (.sneReg x y) (s.skipIf (s.reg x != s.reg y))
  | ldI (nnn) : Completes s (.ldI nnn) (s.setI (zextAddr nnn))
  | jpV0 (nnn) (h : s.params.bnnnMode = .jumpV0) :
      Completes s (.jpV0 nnn) (s.setPc (zextAddr nnn + zextByte (s.reg 0)))
  | jpV0Unknown (nnn) (h : s.params.bnnnMode = .unknown) :
      Completes s (.jpV0 nnn) (s.diagUnknown (encode (.jpV0 nnn)) s.instrAddr)
  | rnd (x kk) : Completes s (.rnd x kk) (s.setReg x (Config.rand8 s.draws &&& kk)).countDraw
  | drw (x y n t) (h : firstFault readFault s.addrI n.toNat = none)
      (ht : t = Blit.rows ⟨s.disp, false⟩ (s.reg x).toNat (s.reg y).toNat (s.mem.readAll s.addrI n.toNat)) :
      Completes s (.drw x y n) ((s.setDisp t.disp).setReg vf (flagByte t.col))
  | skp (x) (h : (s.reg x).toNat ≤ 15) : Completes s (.skp x) (s.skipIf (s.keyPressed (s.reg x).toNat))
  | sknp (x) (h : (s.reg x).toNat ≤ 15) : Completes s (.sknp x) (s.skipIf (!s.keyPressed (s.reg x).toNat))
  | ldVxDt (x) : Completes s (.ldVxDt x) (s.setReg x s.dt)
  | ldVxK (x) : Completes s (.ldVxK x) (s.setWaiting (some ⟨x, s.instrAddr⟩))
  | ldDtVx (x) : Completes s (.ldDtVx x) (s.setDt (s.reg x))
  | ldStVx (x) : Completes s (.ldStVx x) (s.setSt (s.reg x))
  | addIVx (x) : Completes s (.addIVx x) (s.setI (s.i + zextByte (s.reg x)))
  | ldFVx (x) : Completes s (.ldFVx x) (s.setI (glyphAddr (s.reg x)))
  | ldBVx (x) (h : firstFault (writeFault s.params) s.addrI 3 = none) :
      Completes s (.ldBVx x) (s.setMem (s.mem.storeAll s.addrI (bcdDigits (s.reg x))))
  | ldMemVx (x) (h : firstFault (writeFault s.params) s.addrI (regCount x) = none) :
      Completes s (.ldMemVx x) ((s.setMem (s.mem.storeAll s.addrI (s.firstRegs (regCount x)))).stepI x)
  | ldVxMem (x) (h : firstFault readFault s.addrI (regCount x) = none) :
      Completes s (.ldVxMem x) ((s.setRegs (loadRegs s.mem s.addrI (regCount x) s.v)).stepI x)
  | low : Completes s .low (s.setMode .small)
  | high : Completes s .high (s.setMode .big)
  | scd (n) : Completes s (.scd n) (s.diagUnsupported (.scd n))
  | scr : Completes s .scr (s.diagUnsupported .scr)
  | scl : Completes s .scl (s.diagUnsupported .scl)

/-- An instruction raises a fatal condition, and nothing of it is kept but the record and the report (60 R301, R302), or
it completes. -/
theorem exec_cases (i : Instr) (s t : State) (h : exec i s = .next t) :
    (∃ kind info, t = s.raiseIn i kind info) ∨ Completes s i t := by
  cases i with
  | ret =>
    simp only [exec, execRet] at h
    split at h <;> cases h
    · exact .inl ⟨_, _, rfl⟩
    · exact .inr (.ret ‹_›)
  | call nnn =>
    simp only [exec, execCall] at h
    split at h <;> cases h
    · exact .inr (.call nnn ‹_›)
    · exact .inl ⟨_, _, rfl⟩
  | jpV0 nnn =>
    simp only [exec, execJpV0] at h
    split at h <;> cases h
    · exact .inr (.jpV0 nnn ‹_›)
    · exact .inr (.jpV0Unknown nnn ‹_›)
  | drw x y n =>
    simp only [exec, execDrw] at h
    split at h <;> cases h
    · exact .inl ⟨_, _, rfl⟩
    · exact .inr (.drw x y n _ ‹_› rfl)
  | skp x =>
    simp only [exec, execSkp] at h
    split at h <;> cases h
    · exact .inl ⟨_, _, rfl⟩
    · exact .inr (.skp x (Nat.le_of_not_lt ‹_›))
  | sknp x =>
    simp only [exec, execSknp] at h
    split at h <;> cases h
    · exact .inl ⟨_, _, rfl⟩
    · exact .inr (.sknp x (Nat.le_of_not_lt ‹_›))
  | ldBVx x =>
    simp only [exec, execLdBVx] at h
    split at h <;> cases h
    · exact .inl ⟨_, _, rfl⟩
    · exact .inr (.ldBVx x ‹_›)
  | ldMemVx x =>
    simp only [exec, execLdMemVx] at h
    split at h <;> cases h
    · exact .inl ⟨_, _, rfl⟩
    · exact .inr (.ldMemVx x ‹_›)
  | ldVxMem x =>
    simp only [exec, execLdVxMem] at h
    split at h <;> cases h
    · exact .inl ⟨_, _, rfl⟩
    · exact .inr (.ldVxMem x ‹_›)
  | _ => cases h; exact .inr (by constructor)

/-- A completed instruction leaves alone what lies outside the program's reach (10 R48, R49, R52, R58, 00 R8). -/
theorem Completes.outside {i : Instr} {s t : State} (h : Completes s i t) : SameOutside s t := by
  cases h <;> simp [SameOutside]

theorem Completes.turns {i : Instr} {s t : State} (h : Completes s i t) : t.turns = s.turns := by
  cases h <;> simp

/-- A completed instruction leaves the execution state, the Stop request and the fatal latch alone; the wait is Fx0A's. -/
theorem Completes.control {i : Instr} {s t : State} (h : Completes s i t) :
    t.run = s.run ∧ t.stopReq = s.stopReq ∧ t.fatal = s.fatal := by
  cases h <;> simp

theorem exec_outside {i : Instr} {s t : State} (h : exec i s = .next t) : SameOutside s t ∧ t.turns = s.turns := by
  obtain ⟨kind, info, rfl⟩ | hc := exec_cases i s t h
  · simp [SameOutside]
  · exact ⟨hc.outside, hc.turns⟩

end Sys2Proof.Machine
end

section
/-! What one agent turn can do, said once, and that none changes the parameters (20 R90, 60 R335, 00 R8). -/

namespace Sys2Proof.Machine

/-! ## What a turn is -/

/-- Agent turn `u`, taken in the first state, is enabled and leaves the second: one constructor for each way a turn
answers a next state, with the checks that let it. -/
inductive TakesTurn (s : State) : Turn → State → Prop
  | engine (t) (h : engineStep s = .next t) : TakesTurn s .engine t
  | restartFinish (h : s.restartReady = true) : TakesTurn s .restartFinish s.finishRestart
  | restartIdle (h : ¬ s.restartReady = true) : TakesTurn s .restartFinish s
  | load (program) (h : s.run = .stopped) : TakesTurn s (.load program) (s.load program)
  | start : TakesTurn s .start s.start
  | stop : TakesTurn s .stop s.stop
  | restart : TakesTurn s .restart s.restart
  | setKey (k pressed) (h : k < 16) :
      TakesTurn s (.setKey k pressed) { s with key := s.key.setIfInBounds k pressed }
  | timeStep (ms) (h : 0 ≤ ms) (htick : 0 < s.params.tickMs) : TakesTurn s (.timeStep ms) (s.timeStep ms)
  | snapshot : TakesTurn s .snapshot (s.emit (.snapshot s.disp))
  | setDebug (on) : TakesTurn s (.setDebug on) { s with debug := on }
  | setCounter (n) : TakesTurn s (.setCounter n) { s with counter := n }

theorem takeTurn_cases (u : Turn) (s t : State) (h : takeTurn u s = .next t) : TakesTurn s u t := by
  cases u with
  | engine => exact .engine t h
  | restartFinish =>
    cases h
    split
    · exact .restartFinish ‹_›
    · exact .restartIdle ‹_›
  | load program =>
    simp only [takeTurn, loadPort] at h
    split at h <;> cases h
    exact .load program ‹_›
  | setKey k pressed =>
    simp only [takeTurn, keyPort] at h
    split at h <;> cases h
    exact .setKey k pressed ‹_›
  | timeStep ms =>
    simp only [takeTurn, timePort] at h
    split at h
    · cases h
    · next hms =>
      split at h <;> cases h
      next htick => exact .timeStep ms (not_lt.1 hms) (not_le.1 htick)
  | _ => cases h; constructor

/-- Every step is one agent's turn, taken in the state less the listed turn (20 R90). -/
theorem step_eq_takeTurn (s : State) : ∃ u, step s = takeTurn u { s with turns := s.turns.tail } := by
  unfold step nextTurn
  split
  · next u rest e => exact ⟨u, by rw [e]; rfl⟩
  · next e => exact ⟨if s.restartReady then .restartFinish else .engine, by rw [e, List.tail_nil, ← e]⟩

/-! ## No turn changes the parameters -/

theorem engineStep_params {s t : State} (h : engineStep s = .next t) : t.params = s.params := by
  obtain ⟨-, rfl⟩ | ⟨-, -, w, -, rfl⟩ | ⟨-, -, -, hi⟩ := engineStep_cases s t h
  · rfl
  · obtain ⟨-, e⟩ | ⟨_, -, -, e⟩ | ⟨-, -, e⟩ := s.poll_cases w <;> rw [e] <;> rfl
  · obtain ⟨-, rfl⟩ | ⟨_, _, -, -, rfl⟩ | ⟨i, -, -, -, hx⟩ | ⟨_, -, -, -, rfl⟩ := iteration_cases s t hi
    · rfl
    · rfl
    · obtain ⟨⟨-, -, -, -, -, -, -, -, hparams⟩, -⟩ := exec_outside hx
      exact hparams
    · rfl

theorem State.resetAndStart_params (s : State) : s.resetAndStart.params = s.params := by
  rw [resetAndStart_eq]; rfl

theorem State.stop_params (s : State) : s.stop.params = s.params := by unfold stop; split <;> rfl

theorem TakesTurn.params {u : Turn} {s t : State} (h : TakesTurn s u t) : t.params = s.params := by
  cases h with
  | engine _ he => exact engineStep_params he
  | restartFinish => exact s.resetAndStart_params
  | load => unfold State.load; split <;> rfl
  | start => unfold State.start; split <;> rfl
  | stop => exact s.stop_params
  | restart =>
    unfold State.restart
    split
    · split
      · exact s.resetAndStart_params
      · rfl
    · exact s.stop_params
    · rfl
  | timeStep => rw [State.timeStep_eq]
  | _ => rfl

end Sys2Proof.Machine
end

section
/-! The invariant, operation by operation: what each agent's step keeps of it (10 R49, R55, R58, 60 R303, R316, R319). -/

namespace Sys2Proof.Machine

namespace State.Inv

variable {s t : State}

/-! ## The engine -/

theorem observeStop (h : s.Inv) (hw : s.waiting = none) : s.observeStop.Inv :=
  { h with
    stopping_iff := by simp
    waiting_runs := absurd hw
    fatal_stopped := fun _ => rfl
    running_loaded := absurd rfl }

theorem raiseFatal (h : s.Inv) (hw : s.waiting = none) (kind : FatalKind) (a : Word) (w : Option Word)
    (info : Option Nat) : (s.raiseFatal kind a w info).Inv :=
  { h with
    stopping_iff := by simp
    waiting_runs := absurd hw
    fatal_stopped := fun _ => rfl
    running_loaded := absurd rfl }

/-- An instruction that completes in a running engine: it may write memory, kept canonical, and start a wait. -/
theorem completes {i : Instr} (h : s.Inv) (hr : s.run ≠ .stopped) (hc : Completes s i t) (hm : t.mem.wf = true) :
    t.Inv := by
  obtain ⟨hrun, hstop, hfatal⟩ := hc.control
  obtain ⟨-, himage, hacc, hloaded, hran, -, -, hrestarts, hparams⟩ := hc.outside
  exact
    { mem_wf := hm
      image_wf := himage ▸ h.image_wf
      tick_pos := hparams ▸ h.tick_pos
      acc_range := hacc ▸ hparams ▸ h.acc_range
      stopping_iff := hrun ▸ hstop ▸ h.stopping_iff
      waiting_runs := fun _ => hrun ▸ hr
      fatal_stopped := hfatal ▸ hrun ▸ h.fatal_stopped
      running_loaded := hrun ▸ hran ▸ h.running_loaded
      ran_loaded := hran ▸ hloaded ▸ h.ran_loaded
      restarts_loaded := hrestarts ▸ hloaded ▸ h.restarts_loaded }

theorem exec (h : s.Inv) (hr : s.run ≠ .stopped) (hw : s.waiting = none) {i : Instr}
    (he : Machine.exec i s = .next t) : t.Inv := by
  obtain ⟨kind, info, rfl⟩ | hc := exec_cases i s t he
  · exact h.raiseFatal hw ..
  · exact h.completes hr hc (exec_mem_wf i s t h.mem_wf he)

theorem iteration (h : s.Inv) (hr : s.run ≠ .stopped) (hw : s.waiting = none) (he : Machine.iteration s = .next t) :
    t.Inv := by
  obtain ⟨-, rfl⟩ | ⟨kind, info, -, -, rfl⟩ | ⟨i, -, -, -, hx⟩ | ⟨_, -, -, -, rfl⟩ := iteration_cases s t he
  · exact h.observeStop hw
  · exact h.raiseFatal hw ..
  · have ha : s.advancePc.Inv := { h with }
    exact ha.exec hr hw hx
  · exact { h with }

theorem poll (h : s.Inv) (w : Wait) : (s.poll w).Inv := by
  have hnone : (s.setWaiting none).Inv := { h with waiting_runs := absurd rfl }
  obtain ⟨-, e⟩ | ⟨k, -, -, e⟩ | ⟨-, -, e⟩ := s.poll_cases w <;> rw [e]
  · have ha : ((s.setWaiting none).setPc w.addr).Inv := { hnone with }
    exact ha.observeStop rfl
  · exact { hnone with }
  · exact h

theorem engineStep (h : s.Inv) (he : Machine.engineStep s = .next t) : t.Inv := by
  obtain ⟨-, rfl⟩ | ⟨-, -, w, -, rfl⟩ | ⟨hr, -, hw, hi⟩ := engineStep_cases s t he
  · exact h
  · exact h.poll w
  · exact h.iteration hr hw hi

/-! ## The lifecycle and loader ports -/

theorem load (h : s.Inv) (hr : s.run = .stopped) (program : List Byte) : (s.load program).Inv := by
  by_cases hp : program.length ≤ 3584
  · have hwf := Memory.wf_loaded s.params.glyphs program hp
    rw [load_of_le s program hp]
    exact
      { h with
        mem_wf := hwf
        image_wf := hwf
        stopping_iff := by simp [hr]
        waiting_runs := absurd rfl
        fatal_stopped := absurd rfl
        running_loaded := absurd hr
        ran_loaded := fun _ => rfl
        restarts_loaded := fun _ => rfl }
  · rw [load_of_lt s program (by omega)]
    exact { h with }

theorem start (h : s.Inv) : s.start.Inv := by
  unfold State.start
  split
  · next hc =>
    obtain ⟨hr, hl, hf⟩ := hc
    exact
      { h with
        stopping_iff := by simp [← h.stopping_iff, hr]
        waiting_runs := fun _ => by simp
        fatal_stopped := absurd hf
        running_loaded := fun _ => rfl
        ran_loaded := fun _ => hl }
  · exact h

theorem stop (h : s.Inv) : s.stop.Inv := by
  unfold State.stop
  split
  · next hr =>
    exact
      { h with
        stopping_iff := by simp
        waiting_runs := fun _ => by simp
        fatal_stopped := fun hf => absurd (h.fatal_stopped hf) (by simp [hr])
        running_loaded := fun _ => h.running_loaded (by simp [hr]) }
  · exact h

theorem resetAndStart (h : s.Inv) (hl : s.loaded = true) : s.resetAndStart.Inv := by
  rw [resetAndStart_eq]
  exact
    { h with
      mem_wf := by dsimp only; split <;> [exact h.image_wf; exact h.mem_wf]
      stopping_iff := by simp
      waiting_runs := absurd rfl
      fatal_stopped := absurd rfl
      running_loaded := fun _ => rfl
      ran_loaded := fun _ => hl }

/-- One Restart fewer waits. -/
theorem finishRestart (h : s.Inv) (hready : s.restartReady = true) : s.finishRestart.Inv := by
  simp only [restartReady, Bool.and_eq_true, decide_eq_true_eq] at hready
  obtain ⟨hwaits, -⟩ := hready
  have ha := h.resetAndStart (h.restarts_loaded hwaits)
  exact { ha with restarts_loaded := fun _ => ha.ran_loaded rfl }

/-- A Restart of an engine that has not stopped waits; the program is there because the engine runs. -/
theorem addRestart (h : s.Inv) (hr : s.run ≠ .stopped) (n : Nat) : ({ s with restarts := n } : State).Inv :=
  { h with restarts_loaded := fun _ => h.ran_loaded (h.running_loaded hr) }

theorem restart (h : s.Inv) : s.restart.Inv := by
  unfold State.restart
  split
  · split
    · next hran => exact h.resetAndStart (h.ran_loaded hran)
    · exact h
  · next hr => exact h.stop.addRestart (by simp [State.stop, hr]) _
  · next hr => exact h.addRestart (by simp [hr]) _

/-! ## The timer driver -/

theorem timeStep (h : s.Inv) {ms : Rat} (hms : 0 ≤ ms) : (s.timeStep ms).Inv := by
  have hacc := s.timeStep_acc_range ms h.tick_pos (add_nonneg h.acc_range.1 hms)
  rw [timeStep_eq] at hacc ⊢
  exact { h with acc_range := hacc }

/-! ## Every step -/

theorem takesTurn (h : s.Inv) {u : Turn} (hu : TakesTurn s u t) : t.Inv := by
  cases hu with
  | engine _ he => exact h.engineStep he
  | restartFinish hready => exact h.finishRestart hready
  | restartIdle => exact h
  | load program hr => exact h.load hr program
  | start => exact h.start
  | stop => exact h.stop
  | restart => exact h.restart
  | timeStep ms hms => exact h.timeStep hms
  | setKey | snapshot | setDebug | setCounter => exact { h with }

end State.Inv

/-- Settles O45: every step is one agent's turn, and every turn keeps the invariant and the parameters. -/
theorem everyStepKeepsInvariant : Obligations.EveryStepKeepsInvariant := by
  intro s t h hstep
  obtain ⟨u, e⟩ := step_eq_takeTurn s
  have hu := takeTurn_cases u _ t (e ▸ hstep)
  have hless : ({ s with turns := s.turns.tail } : State).Inv := { h with }
  exact ⟨hless.takesTurn hu, hu.params⟩

end Sys2Proof.Machine
end

section
/-! Which instruction may change which piece of state, and where each leaves `pc` (10 R33 to R51). -/

namespace Sys2Proof.Machine

variable {i : Instr} {s t : State}

/-- Settles O41: an instruction that raises and one that completes both leave the outside alone. -/
theorem instructionsLeaveTheOutsideAlone : Obligations.InstructionsLeaveTheOutsideAlone :=
  fun _ _ _ => exec_outside

/-! ## Registers (10 R33) -/

theorem State.writeFlagAndResult_reg_other (s : State) {x a b y : Nibble} {f g : Byte → Byte → Byte} (hx : y ≠ x)
    (hf : y ≠ vf) : (s.writeFlagAndResult x a b f g).reg y = s.reg y := by
  cases ho : s.params.aluVfOrder with
  | sampled => rw [s.writeFlagAndResult_sampled _ _ _ _ _ _ ho, if_neg hx, if_neg hf]
  | reread => rw [s.writeFlagAndResult_reread _ _ _ _ _ _ ho, if_neg hx, if_neg hf]

/-- Fx65 loads V0..Vx, so a register above Vx keeps its value (46 R238, R239). -/
theorem State.setRegs_loadRegs_reg_above (s : State) {m : Memory} {a : Nat} {x y : Nibble} (h : ¬ y ≤ x) :
    (s.setRegs (loadRegs m a (regCount x) s.v)).reg y = s.reg y := by
  have hy : ¬ y.toNat < regCount x := by simp only [BitVec.le_def] at h; unfold regCount; omega
  exact (loadRegs_getElem m a (regCount x) s.v y.toNat y.isLt).trans (if_neg hy)

theorem Completes.reg_of_not_writesReg (h : Completes s i t) {y : Nibble} (hy : ¬ WritesReg i y) : t.reg y = s.reg y := by
  cases h with
  | addReg | sub | shr | subn | shl => exact s.writeFlagAndResult_reg_other (fun e => hy (.inl e)) (fun e => hy (.inr e))
  | ldImm | addImm | ldReg | orReg | andReg | xorReg | ldVxDt => exact s.setReg_reg_other _ _ _ hy
  | rnd => exact s.setReg_reg_other _ _ _ hy
  | drw => exact State.setReg_reg_other _ _ _ _ hy
  | ldVxMem => rw [State.stepI_reg]; exact s.setRegs_loadRegs_reg_above hy
  | _ => simp

/-- Settles O38: a raise writes no register, and a completed instruction only those of the table. -/
theorem registersWrittenAsTabled : Obligations.RegistersWrittenAsTabled := by
  intro i s t y he hy
  obtain ⟨kind, info, rfl⟩ | hc := exec_cases i s t he
  · exact s.raiseIn_reg i kind info y
  · exact hc.reg_of_not_writesReg hy

/-! ## I, the stack, the timers, the display, the wait, the draws (10 R34 to R51) -/

theorem Completes.writes_i (h : Completes s i t) (hne : t.i ≠ s.i) :
    (∃ a, i = .ldI a) ∨ (∃ x, i = .addIVx x ∨ i = .ldFVx x) ∨
      (s.params.ldstIMode = .increment ∧ ∃ x, i = .ldMemVx x ∨ i = .ldVxMem x) := by
  cases h with
  | ldI a => exact .inl ⟨a, rfl⟩
  | addIVx x => exact .inr (.inl ⟨x, .inl rfl⟩)
  | ldFVx x => exact .inr (.inl ⟨x, .inr rfl⟩)
  | ldMemVx x =>
    rw [State.stepI_i] at hne
    exact .inr (.inr ⟨(ite_ne_right_iff.1 hne).1, x, .inl rfl⟩)
  | ldVxMem x =>
    rw [State.stepI_i] at hne
    exact .inr (.inr ⟨(ite_ne_right_iff.1 hne).1, x, .inr rfl⟩)
  | _ => exact absurd (by simp) hne

theorem Completes.writes_stack (h : Completes s i t) (hne : t.sp ≠ s.sp ∨ t.stack ≠ s.stack) :
    i = .ret ∨ ∃ a, i = .call a := by
  cases h with
  | ret => exact .inl rfl
  | call a => exact .inr ⟨a, rfl⟩
  | _ => simp at hne

theorem Completes.writes_dt (h : Completes s i t) (hne : t.dt ≠ s.dt) : ∃ x, i = .ldDtVx x := by
  cases h with
  | ldDtVx x => exact ⟨x, rfl⟩
  | _ => exact absurd (by simp) hne

theorem Completes.writes_st (h : Completes s i t) (hne : t.st ≠ s.st) : ∃ x, i = .ldStVx x := by
  cases h with
  | ldStVx x => exact ⟨x, rfl⟩
  | _ => exact absurd (by simp) hne

theorem Completes.writes_disp (h : Completes s i t) (hne : t.disp ≠ s.disp) :
    i = .cls ∨ i = .low ∨ i = .high ∨ ∃ x y n, i = .drw x y n := by
  cases h with
  | cls => exact .inl rfl
  | low => exact .inr (.inl rfl)
  | high => exact .inr (.inr (.inl rfl))
  | drw x y n => exact .inr (.inr (.inr ⟨x, y, n, rfl⟩))
  | _ => exact absurd (by simp) hne

/-- A sprite has at most 15 rows, fewer than the buffer, so the blitter's law applies: DRW keeps the mode (44 R200). -/
theorem drawn_mode (d : Surface) (px py : Nat) (m : Memory) (a : Nat) (n : Nibble) :
    (Blit.rows ⟨d, false⟩ px py (m.readAll a n.toNat)).disp.mode = d.mode := by
  have hrows : (m.readAll a n.toNat).length ≤ d.mode.height := by
    have := d.mode.height_ge
    rw [Memory.length_readAll]; omega
  exact (Blit.rows_spec ⟨d, false⟩ px py _ hrows).1

theorem Completes.writes_mode (h : Completes s i t) (hne : t.mode ≠ s.mode) : i = .low ∨ i = .high := by
  cases h with
  | low => exact .inl rfl
  | high => exact .inr rfl
  | cls => exact absurd (Surface.mode_blank _) hne
  | drw x y n t _ ht => exact absurd (by rw [ht]; exact drawn_mode ..) hne
  | _ => exact absurd (by simp) hne

theorem Completes.writes_waiting (h : Completes s i t) (hne : t.waiting ≠ s.waiting) : ∃ x, i = .ldVxK x := by
  cases h with
  | ldVxK x => exact ⟨x, rfl⟩
  | _ => exact absurd (by simp) hne

theorem Completes.writes_draws (h : Completes s i t) (hne : t.draws ≠ s.draws) : ∃ x kk, i = .rnd x kk := by
  cases h with
  | rnd x kk => exact ⟨x, kk, rfl⟩
  | _ => exact absurd (by simp) hne

/-- Settles O40: a raise writes none of these, and each is written by the listed instructions only. -/
theorem stateWritersAreAsListed : Obligations.StateWritersAreAsListed := by
  intro i s t he
  obtain ⟨kind, info, rfl⟩ | hc := exec_cases i s t he
  · simp
  · exact ⟨hc.writes_i, hc.writes_stack, hc.writes_dt, hc.writes_st, hc.writes_disp, hc.writes_mode,
      hc.writes_waiting, hc.writes_draws⟩

/-! ## The program counter (10 R36) -/

/-- The entry RET pops lies below `sp`. -/
theorem State.top_eq (s : State) (h : s.sp ≠ 0) : ∃ j : Fin 16, s.sp.val = j.val + 1 ∧ s.top = s.stack[j] := by
  have hsp : s.sp.val ≠ 0 := fun e => h (Fin.ext e)
  exact ⟨⟨s.sp.val - 1, by omega⟩, by simp only; omega, rfl⟩

theorem zextAddr_toNat (nnn : Addr) : (zextAddr nnn).toNat = nnn.toNat := by
  simp only [zextAddr, BitVec.toNat_setWidth]; omega

/-- A jump with offset stays below 2^16 (43 R191). -/
theorem zextAddr_add_zextByte_toNat (nnn : Addr) (b : Byte) :
    (zextAddr nnn + zextByte b).toNat = nnn.toNat + b.toNat := by
  simp only [zextAddr, zextByte, BitVec.toNat_add, BitVec.toNat_setWidth]; omega

/-- A skip taken when `p` holds (40 R134). -/
theorem State.pc_of_skip (s : State) {c : Bool} {p : Prop} [Decidable p] (h : c = true ↔ p) :
    (s.advancePc.skipIf c).pc = if p then s.pc + 4 else s.pc + 2 := by
  simp only [skipIf_pc, advancePc_pc, BitVec.add_assoc, h]; rfl

/-- A skip taken unless `p` holds (40 R135). -/
theorem State.pc_of_skip_unless (s : State) {c : Bool} {p : Prop} [Decidable p] (h : c = false ↔ p) :
    (s.advancePc.skipIf c).pc = if p then s.pc + 2 else s.pc + 4 := by
  rw [s.pc_of_skip (p := ¬ p) (by rw [← h, Bool.not_eq_false]), ite_not]

theorem State.keyPressed_fin (s : State) (k : Fin 16) : s.keyPressed k.val = s.key[k] := by
  simp [keyPressed]

theorem Completes.pcAfter (h : Completes s.advancePc i t) : PcAfter i s t := by
  cases h with
  | jp nnn | call nnn => exact zextAddr_toNat nnn
  | ret hsp => exact s.top_eq hsp
  | jpV0 nnn hm =>
    exact ⟨fun _ => zextAddr_add_zextByte_toNat nnn _, fun hu => absurd (hm.symm.trans hu) (by decide)⟩
  | jpV0Unknown nnn hm => exact ⟨fun hj => absurd (hm.symm.trans hj) (by decide), fun _ => rfl⟩
  | seImm | seReg => exact s.pc_of_skip beq_iff_eq
  | sneImm | sneReg => exact s.pc_of_skip_unless bne_eq_false_iff_eq
  | skp x hx =>
    exact ⟨⟨(s.reg x).toNat, Nat.lt_succ_of_le hx⟩, rfl, s.pc_of_skip (by rw [← State.keyPressed_fin]; rfl)⟩
  | sknp x hx =>
    exact ⟨⟨(s.reg x).toNat, Nat.lt_succ_of_le hx⟩, rfl,
      s.pc_of_skip_unless (by rw [← State.keyPressed_fin, Bool.not_eq_false']; rfl)⟩
  | _ => simp [PcAfter]

/-- Settles O42: a raise goes back to the instruction's address, and a completed instruction leaves `pc` where R36 says. -/
theorem pcAfterEveryInstruction : Obligations.PcAfterEveryInstruction := by
  intro i s t hf he
  obtain ⟨kind, info, rfl⟩ | hc := exec_cases i s.advancePc t he
  · exact ⟨fun _ => s.advancePc_instrAddr, nofun⟩
  · obtain ⟨-, -, hfatal⟩ := hc.control
    exact ⟨absurd (hfatal.trans hf), fun _ => hc.pcAfter⟩

end Sys2Proof.Machine
end

section
/-! The debug toggle and the counter: no operation of the machine reads them (10 R54, 60 R340). -/

namespace Sys2Proof.Machine

/-- `s` with other diagnostic state. -/
def State.withDiag (b : Bool) (n : Nat) (s : State) : State := { s with debug := b, counter := n }

/-- An outcome with its next state, if it has one, sent through `f`. -/
def mapNext (f : State → State) : Host.Outcome State Fault Refusal → Host.Outcome State Fault Refusal
  | .next t => .next (f t)
  | .fault r => .fault r
  | .refused r => .refused r

/-- A choice whose two branches `f` maps to those of another. -/
theorem ite_eq_map {α β : Type} (f : α → β) (c : Prop) [Decidable c] {x y : α} {x' y' : β} (hx : x' = f x)
    (hy : y' = f y) : (if c then x' else y') = f (if c then x else y) := by
  rw [hx, hy, apply_ite f]

namespace State

variable (s : State) (b : Bool) (n : Nat)

@[simp] theorem withDiag_params : (s.withDiag b n).params = s.params := rfl
@[simp] theorem withDiag_addrI : (s.withDiag b n).addrI = s.addrI := rfl
@[simp] theorem withDiag_sp : (s.withDiag b n).sp = s.sp := rfl
@[simp] theorem withDiag_fetchFault : (s.withDiag b n).fetchFault = s.fetchFault := rfl
@[simp] theorem withDiag_fetchBytes : (s.withDiag b n).fetchBytes = s.fetchBytes := rfl
@[simp] theorem withDiag_firstPressed : (s.withDiag b n).firstPressed = s.firstPressed := rfl
@[simp] theorem withDiag_run : (s.withDiag b n).run = s.run := rfl
@[simp] theorem withDiag_turns : (s.withDiag b n).turns = s.turns := rfl
@[simp] theorem withDiag_restartReady : (s.withDiag b n).restartReady = s.restartReady := rfl

theorem skipIf_withDiag (c : Bool) : (s.withDiag b n).skipIf c = (s.skipIf c).withDiag b n :=
  ite_eq_map (withDiag b n) (c = true) rfl rfl

theorem stepI_withDiag (x : Nibble) : (s.withDiag b n).stepI x = (s.stepI x).withDiag b n := by
  simp only [stepI, withDiag_params]
  cases s.params.ldstIMode <;> rfl

theorem writeFlagAndResult_withDiag (x y z : Nibble) (f g : Byte → Byte → Byte) :
    (s.withDiag b n).writeFlagAndResult x y z f g = (s.writeFlagAndResult x y z f g).withDiag b n := by
  simp only [writeFlagAndResult, withDiag_params]
  cases s.params.aluVfOrder <;> rfl

theorem setMode_withDiag (m : Mode) : (s.withDiag b n).setMode m = (s.setMode m).withDiag b n :=
  ite_eq_map (withDiag b n) (m = s.mode) rfl rfl

end State

theorem exec_withDiag (i : Instr) (s : State) (b : Bool) (n : Nat) :
    exec i (s.withDiag b n) = mapNext (State.withDiag b n) (exec i s) := by
  cases i with
  | ret => exact ite_eq_map (mapNext _) (s.sp = 0) rfl rfl
  | call nnn =>
    by_cases h : s.sp.val < 16 <;> simp only [exec, execCall, State.withDiag_sp, h, reduceDIte] <;> rfl
  | seImm | sneImm | seReg | sneReg => exact congrArg Host.Outcome.next (s.skipIf_withDiag b n _)
  | addReg | sub | shr | subn | shl => exact congrArg Host.Outcome.next (s.writeFlagAndResult_withDiag b n ..)
  | low | high => exact congrArg Host.Outcome.next (s.setMode_withDiag b n _)
  | jpV0 =>
    simp only [exec, execJpV0, State.withDiag_params]
    cases s.params.bnnnMode <;> rfl
  | drw x y k =>
    simp only [exec, execDrw, State.withDiag_addrI]
    cases firstFault readFault s.addrI k.toNat <;> rfl
  | skp x | sknp x =>
    exact ite_eq_map (mapNext _) (15 < (s.reg x).toNat) rfl (congrArg Host.Outcome.next (s.skipIf_withDiag b n _))
  | ldBVx =>
    simp only [exec, execLdBVx, State.withDiag_addrI, State.withDiag_params]
    cases firstFault (writeFault s.params) s.addrI 3 <;> rfl
  | ldMemVx x =>
    simp only [exec, execLdMemVx, State.withDiag_addrI, State.withDiag_params]
    cases firstFault (writeFault s.params) s.addrI (regCount x) with
    | none => exact congrArg Host.Outcome.next ((s.setMem _).stepI_withDiag b n x)
    | some => rfl
  | ldVxMem x =>
    simp only [exec, execLdVxMem, State.withDiag_addrI]
    cases firstFault readFault s.addrI (regCount x) with
    | none => exact congrArg Host.Outcome.next ((s.setRegs _).stepI_withDiag b n x)
    | some => rfl
  | _ => rfl

theorem iteration_withDiag (s : State) (b : Bool) (n : Nat) :
    iteration (s.withDiag b n) = mapNext (State.withDiag b n) (iteration s) := by
  refine ite_eq_map (mapNext _) (s.stopReq = true) rfl ?_
  simp only [State.withDiag_fetchFault, State.withDiag_params, State.withDiag_fetchBytes]
  cases s.fetchFault with
  | some => rfl
  | none =>
    cases decode s.params s.fetchBytes with
    | ok p => exact exec_withDiag p.1 s.advancePc b n
    | error => rfl

theorem State.poll_withDiag (s : State) (b : Bool) (n : Nat) (w : Wait) :
    (s.withDiag b n).poll w = (s.poll w).withDiag b n := by
  refine ite_eq_map (State.withDiag b n) (s.stopReq = true) rfl ?_
  simp only [withDiag_firstPressed]
  cases s.firstPressed <;> rfl

theorem engineStep_withDiag (s : State) (b : Bool) (n : Nat) :
    engineStep (s.withDiag b n) = mapNext (State.withDiag b n) (engineStep s) := by
  by_cases hi : s.run = .stopped ∨ s.fatal ≠ none
  · rw [engineStep_idle s hi, engineStep_idle (s.withDiag b n) hi]; rfl
  · obtain ⟨hr, hf⟩ := not_or.1 hi
    rw [not_not] at hf
    cases hw : s.waiting with
    | some w =>
      rw [engineStep_poll s w hr hf hw, engineStep_poll (s.withDiag b n) w hr hf hw, State.poll_withDiag]; rfl
    | none =>
      rw [engineStep_iteration s hr hf hw, engineStep_iteration (s.withDiag b n) hr hf hw, iteration_withDiag]

/-! ## The ports -/

namespace State

variable (s : State) (b : Bool) (n : Nat)

theorem load_withDiag (program : List Byte) : (s.withDiag b n).load program = (s.load program).withDiag b n :=
  ite_eq_map (withDiag b n) (maxProgram < program.length) rfl rfl

theorem start_withDiag : (s.withDiag b n).start = s.start.withDiag b n :=
  ite_eq_map (withDiag b n) (s.run = .stopped ∧ s.loaded = true ∧ s.fatal = none) rfl rfl

theorem stop_withDiag : (s.withDiag b n).stop = s.stop.withDiag b n :=
  ite_eq_map (withDiag b n) (s.run = .running) rfl rfl

theorem resetAndStart_withDiag : (s.withDiag b n).resetAndStart = s.resetAndStart.withDiag b n := by
  rw [resetAndStart_eq, resetAndStart_eq]; rfl

theorem finishRestart_withDiag : (s.withDiag b n).finishRestart = s.finishRestart.withDiag b n := by
  unfold finishRestart
  rw [resetAndStart_withDiag]; rfl

theorem restart_withDiag : (s.withDiag b n).restart = s.restart.withDiag b n := by
  simp only [restart, withDiag_run, resetAndStart_withDiag, stop_withDiag]
  cases s.run with
  | stopped => exact ite_eq_map (withDiag b n) (s.ran = true) rfl rfl
  | running | stopping => rfl

theorem timeStep_withDiag (ms : Rat) : (s.withDiag b n).timeStep ms = (s.timeStep ms).withDiag b n := by
  rw [timeStep_eq, timeStep_eq]; rfl

end State

/-! ## Every step -/

/-- The outside's own turns set the diagnostic state (60 R340); every other turn carries it along unread. -/
theorem takeTurn_withDiag (u : Turn) (s : State) (b : Bool) (n : Nat) :
    ∃ b' n', takeTurn u (s.withDiag b n) = mapNext (State.withDiag b' n') (takeTurn u s) := by
  cases u with
  | setDebug on => exact ⟨on, n, rfl⟩
  | setCounter m => exact ⟨b, m, rfl⟩
  | engine => exact ⟨b, n, engineStep_withDiag s b n⟩
  | restartFinish =>
    exact ⟨b, n, congrArg Host.Outcome.next (ite_eq_map (State.withDiag b n) (s.restartReady = true)
      (s.finishRestart_withDiag b n) rfl)⟩
  | load program =>
    exact ⟨b, n, ite_eq_map (mapNext _) (s.run = .stopped) (congrArg Host.Outcome.next (s.load_withDiag b n program)) rfl⟩
  | start => exact ⟨b, n, congrArg Host.Outcome.next (s.start_withDiag b n)⟩
  | stop => exact ⟨b, n, congrArg Host.Outcome.next (s.stop_withDiag b n)⟩
  | restart => exact ⟨b, n, congrArg Host.Outcome.next (s.restart_withDiag b n)⟩
  | setKey k pressed => exact ⟨b, n, ite_eq_map (mapNext _) (k < 16) rfl rfl⟩
  | timeStep ms =>
    exact ⟨b, n, ite_eq_map (mapNext _) (ms < 0) rfl (ite_eq_map (mapNext _) (s.params.tickMs ≤ 0) rfl
      (congrArg Host.Outcome.next (s.timeStep_withDiag b n ms)))⟩
  | snapshot => exact ⟨b, n, rfl⟩

theorem step_withDiag (s : State) (b : Bool) (n : Nat) :
    ∃ b' n', step (s.withDiag b n) = mapNext (State.withDiag b' n') (step s) := by
  simp only [step, nextTurn, State.withDiag_turns, State.withDiag_restartReady]
  cases s.turns with
  | nil => exact takeTurn_withDiag _ s b n
  | cons u rest => exact takeTurn_withDiag u { s with turns := rest } b n

/-- Settles O47: the step of a state with other diagnostic state is its step with other diagnostic state. -/
theorem diagnosticStateHasNoEffect : Obligations.DiagnosticStateHasNoEffect := by
  intro s b n
  obtain ⟨b', n', e⟩ := step_withDiag s b n
  exact ⟨fun t h => ⟨b', n', e.trans (congrArg _ h)⟩, fun r h => e.trans (congrArg _ h),
    fun r h => e.trans (congrArg _ h)⟩

end Sys2Proof.Machine
end

section
/-! The state at construction (10 R56, R57). -/

namespace Sys2Proof.Machine

/-- Settles O44: at construction nothing runs, waits or is pending, no time is accumulated and no program is loaded. -/
theorem resetMeetsInvariant : Obligations.ResetMeetsInvariant where
  left :=
    { mem_wf := rfl
      image_wf := rfl
      tick_pos := by decide +kernel
      acc_range := by decide +kernel
      stopping_iff := by decide
      waiting_runs := absurd rfl
      fatal_stopped := absurd rfl
      running_loaded := absurd rfl
      ran_loaded := nofun
      restarts_loaded := absurd rfl }
  right := nofun

theorem State.reset_reg (y : Nibble) : State.reset.reg y = 0 := Vector.getElem_replicate ..

/-- Settles O48: the registers, the stack and the keys are constant vectors, the display is the blank one, and no memory
byte is listed. -/
theorem constructionValues : Obligations.ConstructionValues :=
  ⟨State.reset_reg, rfl, rfl, rfl, fun _ => Vector.getElem_replicate .., rfl, rfl, fun _ => Vector.getElem_replicate ..,
    rfl, Surface.pixel_blank .small, fun _ => rfl, fun _ => rfl, rfl, rfl, rfl, rfl, rfl, rfl, rfl⟩

end Sys2Proof.Machine
end

section
/-! Which instruction may change a byte of memory, and where it lies (20 R73, R76, R84). -/

namespace Sys2Proof.Machine

/-- A run of checked stores changes only bytes of its own range, in memory and above the glyph table (20 R84). -/
theorem Memory.storeAll_changes {m : Memory} (hm : m.wf = true) {a b : Nat} {l : List Byte}
    (hne : (m.storeAll a l).read b ≠ m.read b) : a ≤ b ∧ b < a + l.length ∧ glyphLen ≤ b ∧ b < memSize := by
  rw [Memory.read_storeAll hm] at hne
  exact (ite_ne_right_iff.1 hne).1

theorem Completes.writes_mem {i : Instr} {s t : State} (h : Completes s i t) (hm : s.mem.wf = true) {b : Nat}
    (hne : t.mem.read b ≠ s.mem.read b) :
    glyphLen ≤ b ∧ b < memSize ∧ s.addrI ≤ b ∧
      ((∃ x, i = .ldBVx x ∧ b < s.addrI + 3) ∨ ∃ x, i = .ldMemVx x ∧ b < s.addrI + regCount x) := by
  cases h with
  | ldBVx x =>
    obtain ⟨hlo, hhi, hglyph, hmem⟩ := Memory.storeAll_changes hm hne
    exact ⟨hglyph, hmem, hlo, .inl ⟨x, rfl, hhi⟩⟩
  | ldMemVx x =>
    rw [State.stepI_mem] at hne
    obtain ⟨hlo, hhi, hglyph, hmem⟩ := Memory.storeAll_changes hm hne
    exact ⟨hglyph, hmem, hlo, .inr ⟨x, rfl, s.length_firstRegs x ▸ hhi⟩⟩
  | _ => exact absurd (by simp) hne

/-- Settles O39: a raise writes no byte, and a completed instruction only by the checked stores of Fx33 and Fx55. -/
theorem onlyStoresChangeMemory : Obligations.OnlyStoresChangeMemory := by
  intro i s t b hm he hne
  obtain ⟨kind, info, rfl⟩ | hc := exec_cases i s t he
  · exact absurd rfl hne
  · obtain ⟨hglyph, hmem, hlo, hstore⟩ := hc.writes_mem hm hne
    exact ⟨hglyph, hmem, hlo, hstore.imp (fun ⟨x, hx, hhi⟩ => ⟨x, hx, Nat.le_of_lt_succ hhi⟩)
      fun ⟨x, hx, hhi⟩ => ⟨x, hx, Nat.le_of_lt_succ hhi⟩⟩

end Sys2Proof.Machine
end

section
/-! The glyph table, operation by operation: no agent's step changes it once a program is loaded (20 R76, 70 R350, R356,
95 W1). -/

namespace Sys2Proof.Machine

/-- Load lays out the glyph table below every program (70 R350). -/
theorem Memory.read_loaded_glyph (g : Vector Byte 80) (program : List Byte) (d : Fin 80) :
    (Memory.loaded g program).read d.val = g[d] := by
  have hd : d.val < glyphLen := d.isLt
  rw [Memory.read_loaded, if_pos hd]
  simp

namespace State.GlyphsIntact

variable {s t : State}

/-! ## The engine -/

/-- No instruction writes below the glyph table's end, and none writes the image. -/
theorem exec (h : s.GlyphsIntact) (hm : s.mem.wf = true) {i : Instr} (he : Machine.exec i s = .next t) :
    t.GlyphsIntact := by
  intro hl d
  obtain ⟨⟨-, himage, -, hloaded, -, -, -, -, hparams⟩, -⟩ := exec_outside he
  have hread : t.mem.read d.val = s.mem.read d.val := by
    by_contra hne
    obtain ⟨habove, -⟩ := onlyStoresChangeMemory i s t d.val hm he hne
    exact absurd d.isLt (Nat.not_lt.2 habove)
  rw [hread, himage, hparams]
  exact h (hloaded ▸ hl) d

theorem poll (h : s.GlyphsIntact) (w : Wait) : (s.poll w).GlyphsIntact := by
  obtain ⟨-, e⟩ | ⟨k, -, -, e⟩ | ⟨-, -, e⟩ := s.poll_cases w <;> rw [e] <;> exact h

theorem iteration (h : s.GlyphsIntact) (hm : s.mem.wf = true) (he : Machine.iteration s = .next t) :
    t.GlyphsIntact := by
  obtain ⟨-, rfl⟩ | ⟨kind, info, -, -, rfl⟩ | ⟨i, -, -, -, hx⟩ | ⟨_, -, -, -, rfl⟩ := iteration_cases s t he
  · exact h
  · exact h
  · have ha : s.advancePc.GlyphsIntact := h
    exact ha.exec hm hx
  · exact h

theorem engineStep (h : s.GlyphsIntact) (hm : s.mem.wf = true) (he : Machine.engineStep s = .next t) :
    t.GlyphsIntact := by
  obtain ⟨-, rfl⟩ | ⟨-, -, w, -, rfl⟩ | ⟨-, -, -, hi⟩ := engineStep_cases s t he
  · exact h
  · exact h.poll w
  · exact h.iteration hm hi

/-! ## The lifecycle and loader ports -/

theorem load (h : s.GlyphsIntact) (program : List Byte) : (s.load program).GlyphsIntact := by
  by_cases hp : program.length ≤ 3584
  · rw [load_of_le s program hp]
    exact fun _ d => ⟨Memory.read_loaded_glyph .., Memory.read_loaded_glyph ..⟩
  · rw [load_of_lt s program (by omega)]
    exact h

theorem start (h : s.GlyphsIntact) : s.start.GlyphsIntact := by
  unfold State.start; split <;> exact h

theorem stop (h : s.GlyphsIntact) : s.stop.GlyphsIntact := by
  unfold State.stop; split <;> exact h

/-- A Restart keeps memory or takes the image, and both hold the table (70 R356). -/
theorem resetAndStart (h : s.GlyphsIntact) : s.resetAndStart.GlyphsIntact := by
  rw [resetAndStart_eq]
  intro hl d
  obtain ⟨hmem, himage⟩ := h hl d
  refine ⟨?_, himage⟩
  dsimp only
  split
  · exact himage
  · exact hmem

theorem restart (h : s.GlyphsIntact) : s.restart.GlyphsIntact := by
  unfold State.restart
  split
  · split
    · exact h.resetAndStart
    · exact h
  · exact h.stop
  · exact h

/-! ## Every step -/

theorem takesTurn (h : s.GlyphsIntact) (hm : s.mem.wf = true) {u : Turn} (hu : TakesTurn s u t) : t.GlyphsIntact := by
  cases hu with
  | engine _ he => exact h.engineStep hm he
  | restartFinish => exact h.resetAndStart
  | load program => exact h.load program
  | start => exact h.start
  | stop => exact h.stop
  | restart => exact h.restart
  | timeStep ms => rw [timeStep_eq]; exact h
  | restartIdle | setKey | snapshot | setDebug | setCounter => exact h

end State.GlyphsIntact

/-- Settles O46: every step is one agent's turn; the engine stores above the table only, Load lays it out again, and a
Restart takes it from memory or from the image. -/
theorem everyStepKeepsGlyphTable : Obligations.EveryStepKeepsGlyphTable := by
  intro s t hinv h hstep
  obtain ⟨u, e⟩ := step_eq_takeTurn s
  have hless : ({ s with turns := s.turns.tail } : State).GlyphsIntact := h
  exact hless.takesTurn hinv.mem_wf (takeTurn_cases u _ t (e ▸ hstep))

/-- The premises meet in one state with a program loaded: the one a Load leaves from construction (70 R350). -/
theorem loaded_meets_inv_and_glyphsIntact :
    (State.reset.load []).Inv ∧ (State.reset.load []).GlyphsIntact ∧ (State.reset.load []).loaded = true :=
  ⟨resetMeetsInvariant.1.load rfl [], resetMeetsInvariant.2.load [], rfl⟩

end Sys2Proof.Machine
end

section
/-! The decoder, said once: it reads an encoded instruction back, what it reads is encoded as the word it read, and it
accepts exactly the words that match a row of the opcode table (30 R105 to R109). -/

namespace Sys2Proof

/-! ## A word with given fields -/

theorem wordA_of_fields {w : Word} {f : Nibble} {a : Addr} (hf : fieldN1 w = f) (ha : fieldNNN w = a) :
    wordA f a = w :=
  hf ▸ ha ▸ wordA_fields w

theorem wordXK_of_fields {w : Word} {f : Nibble} {k : Byte} (hf : fieldN1 w = f) (hk : fieldKK w = k) :
    wordXK f (fieldX w) k = w :=
  hf ▸ hk ▸ wordXK_fields w

theorem wordXYN_of_fields {w : Word} {f x y n : Nibble} (hf : fieldN1 w = f) (hx : fieldX w = x) (hy : fieldY w = y)
    (hn : fieldN w = n) : wordXYN f x y n = w :=
  hf ▸ hx ▸ hy ▸ hn ▸ wordXYN_fields w

theorem lowNibbleMatches_iff (p : Params) (w : Word) :
    lowNibbleMatches p w = true ↔ p.lowNibble59 = .ignore ∨ fieldN w = 0 := by
  simp [lowNibbleMatches]

/-! ## Decoding an encoded instruction -/

section
variable (p : Params) {w : Word}

theorem decodeWord_family0 (hf : fieldN1 w = 0x0) : decodeWord p w = decodeFamily0 w := by simp [decodeWord, hf]
theorem decodeWord_family8 (hf : fieldN1 w = 0x8) : decodeWord p w = decodeFamily8 w := by simp [decodeWord, hf]
theorem decodeWord_familyE (hf : fieldN1 w = 0xE) : decodeWord p w = decodeFamilyE w := by simp [decodeWord, hf]
theorem decodeWord_familyF (hf : fieldN1 w = 0xF) : decodeWord p w = decodeFamilyF w := by simp [decodeWord, hf]

end

theorem decodeWord_scd (p : Params) (n : Nibble) : decodeWord p (wordXYN 0x0 0x0 0xC n) = .ok (.scd n) := by
  have h : ∀ n : Nibble, decodeFamily0 (wordXYN 0x0 0x0 0xC n) = .ok (.scd n) := by decide
  exact (decodeWord_family0 p (fieldN1_wordXYN ..)).trans (h n)

/-- SE Vx,Vy and SNE Vx,Vy, by LOW_NIBBLE_59 (30 R109). -/
theorem decodeWord_compare {p : Params} {n : Nibble} (h : p.lowNibble59 = .ignore ∨ n = 0) (x y : Nibble) :
    decodeWord p (wordXYN 0x5 x y n) = .ok (.seReg x y) ∧ decodeWord p (wordXYN 0x9 x y n) = .ok (.sneReg x y) := by
  have hm (f : Nibble) : lowNibbleMatches p (wordXYN f x y n) = true := by
    rwa [lowNibbleMatches_iff, fieldN_wordXYN]
  simp [decodeWord, hm]

theorem decodeWord_encode {p : Params} (i : Instr) (hi : i.wf p = true) : decodeWord p (encode i) = .ok i := by
  cases i with
  | cls | ret | low | high | scr | scl => rfl
  | scd n => exact decodeWord_scd p n
  | seReg x y => exact (decodeWord_compare (.inr rfl) x y).1
  | sneReg x y => exact (decodeWord_compare (.inr rfl) x y).2
  | jpV0 nnn =>
    have hm : p.bnnnMode = .jumpV0 := beq_iff_eq.1 hi
    simp [encode, decodeWord, hm]
  | skp x | sknp x => simp [encode, decodeWord_familyE, decodeFamilyE]
  | ldVxDt x | ldVxK x | ldDtVx x | ldStVx x | addIVx x | ldFVx x | ldBVx x | ldMemVx x | ldVxMem x =>
    simp [encode, decodeWord_familyF, decodeFamilyF]
  | ldReg x y | orReg x y | andReg x y | xorReg x y | addReg x y | sub x y | shr x y | subn x y | shl x y =>
    simp [encode, decodeWord_family8, decodeFamily8]
  | _ => simp [encode, decodeWord]

/-- Settles O1: the two bytes join to the instruction's word, which decodes to it. -/
theorem decodeInvertsEncode : Obligations.DecodeInvertsEncode := by
  intro p i rest hi
  refine (decode_two ..).2 ⟨?_, rfl⟩
  rw [wordOfBytes_extract]
  exact decodeWord_encode i hi

/-- Settles O4, by running the decoder on each word. -/
theorem sampleWordsDecode : Obligations.SampleWordsDecode := by
  unfold Obligations.SampleWordsDecode; decide

/-! ## The word a decoded instruction stands for -/

theorem decodeFamily0_ok {w : Word} {i : Instr} (p : Params) (hf : fieldN1 w = 0x0) (h : decodeFamily0 w = .ok i) :
    i.wf p = true ∧ encode i = w := by
  unfold decodeFamily0 at h
  split at h
  iterate 6 next ha => cases h; exact ⟨rfl, wordA_of_fields hf ha⟩
  split at h <;> cases h
  next hc =>
    obtain ⟨hx, hy⟩ := hc
    exact ⟨rfl, wordXYN_of_fields hf hx hy rfl⟩

theorem decodeFamily8_ok {w : Word} {i : Instr} (p : Params) (hf : fieldN1 w = 0x8) (h : decodeFamily8 w = .ok i) :
    i.wf p = true ∧ encode i = w := by
  unfold decodeFamily8 at h
  split at h <;> cases h
  all_goals next hn => exact ⟨rfl, wordXYN_of_fields hf rfl rfl hn⟩

theorem decodeFamilyE_ok {w : Word} {i : Instr} (p : Params) (hf : fieldN1 w = 0xE) (h : decodeFamilyE w = .ok i) :
    i.wf p = true ∧ encode i = w := by
  unfold decodeFamilyE at h
  split at h <;> cases h
  all_goals next hk => exact ⟨rfl, wordXK_of_fields hf hk⟩

theorem decodeFamilyF_ok {w : Word} {i : Instr} (p : Params) (hf : fieldN1 w = 0xF) (h : decodeFamilyF w = .ok i) :
    i.wf p = true ∧ encode i = w := by
  unfold decodeFamilyF at h
  split at h <;> cases h
  all_goals next hk => exact ⟨rfl, wordXK_of_fields hf hk⟩

/-- Families 5 and 9: the word is the encoding, or its low nibble was ignored (30 R109). -/
theorem wordXYN_of_lowNibbleMatches {p : Params} {w : Word} {f : Nibble} (hf : fieldN1 w = f)
    (hm : lowNibbleMatches p w = true) :
    wordXYN f (fieldX w) (fieldY w) 0 = w ∨
      p.lowNibble59 = .ignore ∧ wordXYN f (fieldX w) (fieldY w) 0 = w &&& 0xFFF0 := by
  obtain hi | hn := (lowNibbleMatches_iff p w).1 hm
  · exact .inr ⟨hi, hf ▸ wordXYN_low_zero w⟩
  · exact .inl (wordXYN_of_fields hf rfl rfl hn)

/-- Settles O2: family by family, the fields the decoder read make up the word. -/
theorem encodeInvertsDecode : Obligations.EncodeInvertsDecode := by
  intro p w i h
  unfold decodeWord at h
  split at h
  · next hf => exact (decodeFamily0_ok p hf h).imp id .inl
  · next hf => cases h; exact ⟨rfl, .inl (wordA_of_fields hf rfl)⟩
  · next hf => cases h; exact ⟨rfl, .inl (wordA_of_fields hf rfl)⟩
  · next hf => cases h; exact ⟨rfl, .inl (wordXK_of_fields hf rfl)⟩
  · next hf => cases h; exact ⟨rfl, .inl (wordXK_of_fields hf rfl)⟩
  · next hf =>
    split at h <;> cases h
    next hm =>
      exact ⟨rfl, (wordXYN_of_lowNibbleMatches hf hm).imp_right fun ⟨hi, hw⟩ => ⟨hi, ⟨_, _, .inl rfl⟩, hw⟩⟩
  · next hf => cases h; exact ⟨rfl, .inl (wordXK_of_fields hf rfl)⟩
  · next hf => cases h; exact ⟨rfl, .inl (wordXK_of_fields hf rfl)⟩
  · next hf => exact (decodeFamily8_ok p hf h).imp id .inl
  · next hf =>
    split at h <;> cases h
    next hm =>
      exact ⟨rfl, (wordXYN_of_lowNibbleMatches hf hm).imp_right fun ⟨hi, hw⟩ => ⟨hi, ⟨_, _, .inr rfl⟩, hw⟩⟩
  · next hf => cases h; exact ⟨rfl, .inl (wordA_of_fields hf rfl)⟩
  · next hf =>
    split at h <;> cases h
    next hm => exact ⟨beq_iff_eq.2 hm, .inl (wordA_of_fields hf rfl)⟩
  · next hf => cases h; exact ⟨rfl, .inl (wordXK_of_fields hf rfl)⟩
  · next hf => cases h; exact ⟨rfl, .inl (wordXYN_of_fields hf rfl rfl rfl)⟩
  · next hf => exact (decodeFamilyE_ok p hf h).imp id .inl
  · have hf : fieldN1 w = 0xF := by
      generalize fieldN1 w = f at *
      decide +revert
    exact (decodeFamilyF_ok p hf h).imp id .inl

/-! ## The rows of the opcode table -/

/-- Two words that agree under a mask agree in every field the mask covers. -/
theorem extractLsb'_eq_of_and_eq {w v m : Word} {k n : Nat} (h : w &&& m = v &&& m)
    (hm : m.extractLsb' k n = BitVec.allOnes n) : w.extractLsb' k n = v.extractLsb' k n := by
  have he := congrArg (BitVec.extractLsb' k n) h
  rwa [BitVec.extractLsb'_and, BitVec.extractLsb'_and, hm, BitVec.and_allOnes, BitVec.and_allOnes] at he

theorem wordXYN_of_and_eq {w : Word} {f x y n : Nibble} (h : w &&& 0xFFF0 = wordXYN f x y n &&& 0xFFF0) :
    wordXYN f x y (fieldN w) = w := by
  have hf : fieldN1 w = f := (extractLsb'_eq_of_and_eq h rfl).trans (fieldN1_wordXYN ..)
  have hx : fieldX w = x := (extractLsb'_eq_of_and_eq h rfl).trans (fieldX_wordXYN ..)
  have hy : fieldY w = y := (extractLsb'_eq_of_and_eq h rfl).trans (fieldY_wordXYN ..)
  exact wordXYN_of_fields hf hx hy rfl

/-- The mask of 5xy0 and 9xy0 (30 R109). -/
def compareMask : LowNibble59 → Word
  | .strict => 0xF00F
  | .ignore => 0xF000

/-- The row of the opcode table an instruction belongs to, under a choice of parameters (30 R109). -/
def Instr.rowUnder (p : Params) : Instr → OpcodeRow
  | .seReg _ _ => ⟨compareMask p.lowNibble59, 0x5000⟩
  | .sneReg _ _ => ⟨compareMask p.lowNibble59, 0x9000⟩
  | i => i.row

/-- An instruction of each row, in the order of `opcodeRows`. -/
def rowSamples : List Instr :=
  [.cls, .ret, .low, .high, .scd 0, .scr, .scl, .jp 0, .call 0, .seImm 0 0, .sneImm 0 0, .ldImm 0 0, .addImm 0 0,
   .ldReg 0 0, .orReg 0 0, .andReg 0 0, .xorReg 0 0, .addReg 0 0, .sub 0 0, .shr 0 0, .subn 0 0, .shl 0 0, .ldI 0,
   .rnd 0 0, .drw 0 0 0, .skp 0, .sknp 0, .ldVxDt 0, .ldVxK 0, .ldDtVx 0, .ldStVx 0, .addIVx 0, .ldFVx 0, .ldBVx 0,
   .ldMemVx 0, .ldVxMem 0, .seReg 0 0, .sneReg 0 0, .jpV0 0]

theorem opcodeRows_eq (p : Params) : opcodeRows p = (rowSamples.filter (·.wf p)).map (·.rowUnder p) := by
  obtain ⟨b, l⟩ := p
  cases b <;> cases l <;> rfl

theorem rowUnder_mem_opcodeRows {p : Params} (i : Instr) (hi : i.wf p = true) : i.rowUnder p ∈ opcodeRows p := by
  cases i with
  | jpV0 nnn =>
    have hm : p.bnnnMode = .jumpV0 := beq_iff_eq.1 hi
    simp [opcodeRows, jumpV0Rows, hm, Instr.rowUnder, Instr.row]
  | seReg | sneReg =>
    cases hl : p.lowNibble59 <;> simp [opcodeRows, compareRows, hl, Instr.rowUnder, compareMask]
  | _ => simp [opcodeRows, fixedRowsLow, fixedRowsHigh, Instr.rowUnder, Instr.row]

theorem exists_of_mem_opcodeRows {p : Params} {r : OpcodeRow} (h : r ∈ opcodeRows p) :
    ∃ i : Instr, i.wf p = true ∧ i.rowUnder p = r := by
  obtain ⟨i, hi, hr⟩ := List.mem_map.1 (opcodeRows_eq p ▸ h)
  exact ⟨i, (List.mem_filter.1 hi).2, hr⟩

theorem matchesWord_encode (p : Params) (i : Instr) : (i.rowUnder p).matchesWord (encode i) = true := by
  apply Laws.matches_of_mask
  cases i with
  | cls | ret | low | high | scr | scl => exact BitVec.and_allOnes
  | jp | call | ldI | jpV0 => exact Laws.wordA_mask_F000 ..
  | seImm | sneImm | ldImm | addImm | rnd => exact Laws.wordXK_mask_F000 ..
  | skp | sknp | ldVxDt | ldVxK | ldDtVx | ldStVx | addIVx | ldFVx | ldBVx | ldMemVx | ldVxMem =>
    exact Laws.wordXK_mask_F0FF ..
  | ldReg | orReg | andReg | xorReg | addReg | sub | shr | subn | shl => exact Laws.wordXYN_mask_F00F ..
  | drw => exact Laws.wordXYN_mask_F000 ..
  | scd => exact Laws.wordXYN_mask_FFF0 ..
  | seReg | sneReg =>
    simp only [Instr.rowUnder]
    cases p.lowNibble59 with
    | strict => exact Laws.wordXYN_mask_F00F ..
    | ignore => exact Laws.wordXYN_mask_F000 ..

section
/-! A word that matches an instruction's row has the fields of its encoding that the row's mask covers. -/

variable {p : Params} {w m : Word} {i : Instr} (h : (i.rowUnder p).matchesWord w = true)
  (hm : (i.rowUnder p).mask = m)
include h hm

theorem and_eq_of_matchesWord : w &&& m = encode i &&& m := by
  have he := matchesWord_encode p i
  simp only [OpcodeRow.matchesWord, beq_iff_eq, hm] at h he
  rw [h, he]

theorem fieldN1_of_matchesWord (hF : fieldN1 m = 0xF) : fieldN1 w = fieldN1 (encode i) :=
  extractLsb'_eq_of_and_eq (and_eq_of_matchesWord h hm) hF

theorem fieldN_of_matchesWord (hF : fieldN m = 0xF) : fieldN w = fieldN (encode i) :=
  extractLsb'_eq_of_and_eq (and_eq_of_matchesWord h hm) hF

theorem fieldKK_of_matchesWord (hF : fieldKK m = 0xFF) : fieldKK w = fieldKK (encode i) :=
  extractLsb'_eq_of_and_eq (and_eq_of_matchesWord h hm) hF

end

theorem lowNibbleMatches_of_and_eq {p : Params} {w : Word} {f x y : Nibble}
    (h : w &&& compareMask p.lowNibble59 = wordXYN f x y 0 &&& compareMask p.lowNibble59) :
    lowNibbleMatches p w = true := by
  rw [lowNibbleMatches_iff]
  cases hl : p.lowNibble59 with
  | ignore => exact .inl rfl
  | strict =>
    rw [hl] at h
    exact .inr ((extractLsb'_eq_of_and_eq h rfl).trans (fieldN_wordXYN ..))

/-- A word that matches an instruction's row decodes to an instruction of that row: the decoder reads the family and the
selector that the row fixes. -/
theorem decodeWord_of_matchesWord {p : Params} {w : Word} (i : Instr) (hi : i.wf p = true)
    (h : (i.rowUnder p).matchesWord w = true) : ∃ j, decodeWord p w = .ok j ∧ j.rowUnder p = i.rowUnder p := by
  have hw := and_eq_of_matchesWord h rfl
  cases i with
  | cls | ret | low | high | scr | scl =>
    have he : w = encode _ := BitVec.and_allOnes.symm.trans (hw.trans BitVec.and_allOnes)
    exact ⟨_, he ▸ rfl, rfl⟩
  | scd n =>
    have hd := decodeWord_scd p (fieldN w)
    rw [wordXYN_of_and_eq hw] at hd
    exact ⟨_, hd, rfl⟩
  | seReg x y | sneReg x y =>
    have hF : fieldN1 (compareMask p.lowNibble59) = 0xF := by cases p.lowNibble59 <;> rfl
    have hf := (fieldN1_of_matchesWord h rfl hF).trans (fieldN1_wordXYN ..)
    rw [decodeWord, hf]
    exact ⟨_, if_pos (lowNibbleMatches_of_and_eq hw), rfl⟩
  | jpV0 nnn =>
    have hf := (fieldN1_of_matchesWord (m := 0xF000) h rfl rfl).trans (fieldN1_wordA ..)
    rw [decodeWord, hf]
    exact ⟨_, if_pos (beq_iff_eq.1 hi), rfl⟩
  | ldReg x y | orReg x y | andReg x y | xorReg x y | addReg x y | sub x y | shr x y | subn x y | shl x y =>
    have hf := (fieldN1_of_matchesWord (m := 0xF00F) h rfl rfl).trans (fieldN1_wordXYN ..)
    have hs := (fieldN_of_matchesWord (m := 0xF00F) h rfl rfl).trans (fieldN_wordXYN ..)
    rw [decodeWord_family8 p hf, decodeFamily8, hs]
    exact ⟨_, rfl, rfl⟩
  | skp x | sknp x =>
    have hf := (fieldN1_of_matchesWord (m := 0xF0FF) h rfl rfl).trans (fieldN1_wordXK ..)
    have hs := (fieldKK_of_matchesWord (m := 0xF0FF) h rfl rfl).trans (fieldKK_wordXK ..)
    rw [decodeWord_familyE p hf, decodeFamilyE, hs]
    exact ⟨_, rfl, rfl⟩
  | ldVxDt x | ldVxK x | ldDtVx x | ldStVx x | addIVx x | ldFVx x | ldBVx x | ldMemVx x | ldVxMem x =>
    have hf := (fieldN1_of_matchesWord (m := 0xF0FF) h rfl rfl).trans (fieldN1_wordXK ..)
    have hs := (fieldKK_of_matchesWord (m := 0xF0FF) h rfl rfl).trans (fieldKK_wordXK ..)
    rw [decodeWord_familyF p hf, decodeFamilyF, hs]
    exact ⟨_, rfl, rfl⟩
  | _ =>
    have hf := fieldN1_of_matchesWord (m := 0xF000) h rfl rfl
    simp only [encode, fieldN1_wordA, fieldN1_wordXK, fieldN1_wordXYN] at hf
    rw [decodeWord, hf]
    exact ⟨_, rfl, rfl⟩

/-- A decoded word matches the row of its instruction, the low nibble that is ignored included. -/
theorem matchesWord_of_decodeWord {p : Params} {w : Word} {i : Instr} (h : decodeWord p w = .ok i) :
    (i.rowUnder p).matchesWord w = true := by
  have he := matchesWord_encode p i
  obtain ⟨-, rfl | ⟨hl, ⟨x, y, hi⟩, hw⟩⟩ := encodeInvertsDecode p w i h
  · exact he
  · rw [hw] at he
    obtain rfl | rfl := hi <;>
      simpa [OpcodeRow.matchesWord, Instr.rowUnder, hl, compareMask, BitVec.and_assoc] using he

/-- The words a row of the table matches are those that decode to an instruction of the row (30 R109). -/
theorem row_matches_iff (p : Params) (w : Word) (r : OpcodeRow) :
    r ∈ opcodeRows p ∧ r.matchesWord w = true ↔ ∃ i, decodeWord p w = .ok i ∧ i.rowUnder p = r := by
  constructor
  · rintro ⟨hr, hm⟩
    obtain ⟨i, hi, rfl⟩ := exists_of_mem_opcodeRows hr
    exact decodeWord_of_matchesWord i hi hm
  · rintro ⟨i, h, rfl⟩
    exact ⟨rowUnder_mem_opcodeRows i (encodeInvertsDecode p w i h).1, matchesWord_of_decodeWord h⟩

/-! ## Decoding as a function of the word and two parameters -/

theorem decodeWord_congr {p q : Params} (w : Word) (hb : p.bnnnMode = q.bnnnMode) (hl : p.lowNibble59 = q.lowNibble59) :
    decodeWord p w = decodeWord q w := by
  obtain ⟨_, _⟩ := p
  obtain ⟨_, _⟩ := q
  dsimp only at hb hl
  subst hb hl
  rfl

/-- A word that is no instruction is rejected as itself. -/
theorem decodeWord_error {p : Params} {w : Word} {e : DecodeError} (h : decodeWord p w = .error e) :
    e = .unknown w := by
  unfold decodeWord decodeFamily0 decodeFamily8 decodeFamilyE decodeFamilyF at h
  repeat' split at h
  all_goals cases h
  all_goals rfl

theorem decodeWord_compare_strict {p : Params} {n : Nibble} (hl : p.lowNibble59 = .strict) (hn : n ≠ 0) (x y : Nibble) :
    decodeWord p (wordXYN 0x5 x y n) = .error (.unknown (wordXYN 0x5 x y n)) ∧
      decodeWord p (wordXYN 0x9 x y n) = .error (.unknown (wordXYN 0x9 x y n)) := by
  have hm (f : Nibble) : ¬ lowNibbleMatches p (wordXYN f x y n) = true := by
    simpa [lowNibbleMatches_iff, hl] using hn
  simp [decodeWord, hm]

theorem decodeWord_jpV0_unknown {p : Params} (hb : p.bnnnMode = .unknown) (a : Addr) :
    decodeWord p (wordA 0xB a) = .error (.unknown (wordA 0xB a)) := by
  simp [decodeWord, hb]

/-- Settles O3: the rows a word matches are the rows of the instruction it decodes to, which is one at most. -/
theorem decodingFollowsTheOpcodeMap : Obligations.DecodingFollowsTheOpcodeMap := by
  refine ⟨fun p q w => decodeWord_congr w, ?_, ?_, ?_, fun p x y n h => decodeWord_compare h x y,
    fun p x y n hl hn => decodeWord_compare_strict hl hn x y, fun p a hb => decodeWord_jpV0_unknown hb a⟩
  · intro p w r r' hr hr' hm hm'
    obtain ⟨i, hi, rfl⟩ := (row_matches_iff p w r).1 ⟨hr, hm⟩
    obtain ⟨j, hj, rfl⟩ := (row_matches_iff p w r').1 ⟨hr', hm'⟩
    cases hi.symm.trans hj
    rfl
  · intro p w hnone
    cases h : decodeWord p w with
    | ok i =>
      obtain ⟨hr, hm⟩ := (row_matches_iff p w _).2 ⟨i, h, rfl⟩
      exact absurd hm (by simp [hnone _ hr])
    | error e => rw [decodeWord_error h]
  · rintro p w ⟨r, hr, hm⟩
    obtain ⟨i, hi, -⟩ := (row_matches_iff p w r).1 ⟨hr, hm⟩
    exact ⟨i, hi⟩

end Sys2Proof
end

section
/-! The engine's turn: a pending Stop request, a fetch that raises, an instruction, an unknown opcode (30 R101, R102,
R110). -/

namespace Sys2Proof.Machine

variable {s s' : State}

/-- An engine turn leaves the state but for the list of turns. -/
theorem State.EngineTurn.exists_turns (h : s.EngineTurn s') : ∃ ts, s' = { s with turns := ts } := ⟨_, h.eq⟩

theorem State.reg_of_turns (s : State) (ts : List Turn) (y : Nibble) :
    ({ s with turns := ts } : State).reg y = s.reg y :=
  rfl

/-- In the turn of an engine that may go on and does not wait, the step is an iteration (30 R101, 60 R303). -/
theorem State.EngineTurn.step_iteration (h : s.EngineTurn s') (hr : s.run ≠ .stopped) (hf : s.fatal = none)
    (hw : s.waiting = none) : Machine.step s = iteration s' := by
  rw [h.step]
  obtain ⟨ts, rfl⟩ := h.exists_turns
  exact engineStep_iteration _ hr hf hw

/-- An iteration honours a pending Stop request first (60 R318). -/
theorem iteration_stop (hs : s.stopReq = true) : iteration s = .next s.observeStop := by
  simp [iteration, hs]

/-- Settles O5: the turn is an iteration, whose fetch is legal and whose word decodes. -/
theorem stepRunsDecodedInstruction : Obligations.StepRunsDecodedInstruction := by
  intro s s' i he ⟨hr, hf, hw, hs⟩ hl hd
  rw [he.step_iteration hr hf hw]
  obtain ⟨ts, rfl⟩ := he.exists_turns
  exact iteration_exec _ i hs hl ((decode_two ..).1 hd).1

/-- An event emitted by an instruction that does nothing else. -/
theorem onlyPcAndOut_emit (s : State) (e : OutEvent) : OnlyPcAndOut s (s.advancePc.emit e) := by
  simp [OnlyPcAndOut, SameRegs, SameMem, SameStack, SameTimers, SameDisplay, SameControl, SameOutside]

/-- Settles O6: the turn is an iteration whose word does not decode, and it only emits. -/
theorem unknownOpcodeOnlyDiagnoses : Obligations.UnknownOpcodeOnlyDiagnoses := by
  rintro s s' w he ⟨hr, hf, hw, hs⟩ hl rfl hd
  rw [he.step_iteration hr hf hw]
  obtain ⟨ts, rfl⟩ := he.exists_turns
  exact ⟨_, iteration_unknown _ _ hs hl hd, rfl, rfl, onlyPcAndOut_emit _ _⟩

/-- A fetch that raises takes its fatal condition, without a word (30 R102, 60 R301). -/
theorem step_fetchFault (he : s.EngineTurn s') (hready : s.Ready) {kind : FatalKind} {info : Nat}
    (h : s.fetchFault = some (kind, info)) :
    ∃ t, step s = .next t ∧ TakesFatal s t kind none (some info) ∧ t.turns = s'.turns := by
  obtain ⟨hr, hf, hw, hs⟩ := hready
  rw [he.step_iteration hr hf hw]
  obtain ⟨ts, rfl⟩ := he.exists_turns
  refine ⟨_, iteration_fault _ kind info hs h, ?_, rfl⟩
  simp [TakesFatal, SameRegs, SameMem, SameStack, SameTimers, SameDisplay, SameOutside, State.reg_of_turns]

/-- Settles O7: each of the three fetches raises, and the raise is taken. -/
theorem fetchFaultsAreFatal : Obligations.FetchFaultsAreFatal := by
  intro s s' he hready
  refine ⟨fun hp hlow => step_fetchFault he hready (s.fetchFault_low hp hlow), fun hhigh => ?_, fun hlast => ?_⟩
  · have h := s.fetchFault_high (by omega)
    rw [Nat.max_eq_left hhigh] at h
    exact step_fetchFault he hready h
  · have h := s.fetchFault_high (by omega)
    rw [hlast] at h
    exact step_fetchFault he hready h

/-- Settles O8: the iteration is the Stop request's. -/
theorem stopRequestWinsOverFetch : Obligations.StopRequestWinsOverFetch := by
  intro s s' he hr hf hw hs
  rw [he.step_iteration hr hf hw]
  obtain ⟨ts, rfl⟩ := he.exists_turns
  refine ⟨_, iteration_stop hs, ?_⟩
  simpa [SameRegs, SameMem, SameStack, SameTimers, SameDisplay, SameOutside, State.reg_of_turns] using ⟨hw, hf⟩

/-- An instruction that is recognised and not executed (47 R264 to R266). -/
theorem unsupported_of_exec_eq {i : Instr} (h : exec i s.advancePc = .next (s.advancePc.diagUnsupported i)) :
    ∃ t, exec i s.advancePc = .next t ∧ t.pc = s.pc + 2 ∧ t.out = .diag .unsupported (encode i) s.pc :: s.out ∧
      OnlyPcAndOut s t :=
  ⟨_, h, rfl, by simp, onlyPcAndOut_emit s _⟩

/-- Settles O36: each word is its instruction's encoding, and each meaning is the diagnostic. -/
theorem scrollsOnlyDiagnose : Obligations.ScrollsOnlyDiagnose := fun _ n =>
  ⟨⟨decodeWord_encode (.scd n) rfl, decodeWord_encode .scr rfl, decodeWord_encode .scl rfl⟩,
    unsupported_of_exec_eq (i := .scd n) rfl, unsupported_of_exec_eq (i := .scr) rfl,
    unsupported_of_exec_eq (i := .scl) rfl⟩

/-- Settles O37: no arm of an instruction faults or refuses, whichever branch it takes. -/
theorem everyInstructionAnswersNext : Obligations.EveryInstructionAnswersNext := by
  intro i s
  cases i with
  | ret | call | jpV0 | drw | skp | sknp | ldBVx | ldMemVx | ldVxMem =>
    simp only [exec, execRet, execCall, execJpV0, execDrw, execSkp, execSknp, execLdBVx, execLdMemVx, execLdVxMem]
    split <;> exact ⟨_, rfl⟩
  | _ => exact ⟨_, rfl⟩

end Sys2Proof.Machine
end

section
/-! The control instructions: clear, return, jump, call and the compares (40 R130 to R137, 43 R191). -/

namespace Sys2Proof.Machine

variable {s t u : State}

/-! ## Frames -/

theorem onlyPc_setPc (s : State) (a : Word) : OnlyPc s (s.advancePc.setPc a) := by
  simp [OnlyPc, OnlyRegsAndPc, SameRegs, SameMem, SameStack, SameTimers, SameDisplay, SameControl, SameOutside, SameModel]

theorem onlyPc_skipIf (s : State) (c : Bool) : OnlyPc s (s.advancePc.skipIf c) := by
  simp [OnlyPc, OnlyRegsAndPc, SameRegs, SameMem, SameStack, SameTimers, SameDisplay, SameControl, SameOutside, SameModel]

theorem onlyDisplayPcAndOut_setDisp (s : State) (d : Surface) : OnlyDisplayPcAndOut s (s.advancePc.setDisp d) := by
  simp [OnlyDisplayPcAndOut, SameRegs, SameMem, SameStack, SameTimers, SameControl, SameOutside]

theorem onlyStackAndPc_push (s : State) (a b : Word) (h : s.advancePc.sp.val < 16) :
    OnlyStackAndPc s ((s.advancePc.push a h).setPc b) := by
  simp [OnlyStackAndPc, SameRegs, SameMem, SameTimers, SameDisplay, SameControl, SameOutside, SameModel]

theorem onlyStackAndPc_dropTop (s : State) (a : Word) : OnlyStackAndPc s (s.advancePc.dropTop.setPc a) := by
  simp [OnlyStackAndPc, SameRegs, SameMem, SameTimers, SameDisplay, SameControl, SameOutside, SameModel]

theorem OnlyStackAndPc.trans (hst : OnlyStackAndPc s t) (htu : OnlyStackAndPc t u) : OnlyStackAndPc s u := by
  simp_all [OnlyStackAndPc, SameRegs, SameMem, SameTimers, SameDisplay, SameControl, SameOutside, SameModel]

/-- A raise takes its fatal condition, with the instruction's word and address (60 R301, R302). -/
theorem takesFatal_raiseIn (s : State) (i : Instr) (kind : FatalKind) (info : Option Nat) :
    TakesFatal s (s.advancePc.raiseIn i kind info) kind (some (encode i)) info := by
  simp [TakesFatal, SameRegs, SameMem, SameStack, SameTimers, SameDisplay, SameOutside]

/-! ## What the instructions with a branch do -/

theorem exec_ret_pop (h : s.sp ≠ 0) : exec .ret s.advancePc = .next (s.advancePc.dropTop.setPc s.top) := if_neg h

theorem exec_ret_underflow (h : s.sp = 0) :
    exec .ret s.advancePc = .next (s.advancePc.raiseIn .ret .stackUnderflow none) := if_pos h

theorem exec_call_push (nnn : Addr) (h : s.sp.val < 16) :
    exec (.call nnn) s.advancePc = .next ((s.advancePc.push (s.pc + 2) h).setPc (zextAddr nnn)) := dif_pos h

theorem exec_call_overflow (nnn : Addr) (h : ¬ s.sp.val < 16) :
    exec (.call nnn) s.advancePc = .next (s.advancePc.raiseIn (.call nnn) .stackOverflow none) := dif_neg h

theorem exec_jpV0_jump (nnn : Addr) (h : s.params.bnnnMode = .jumpV0) :
    exec (.jpV0 nnn) s.advancePc = .next (s.advancePc.setPc (zextAddr nnn + zextByte (s.reg 0))) := by
  simp [exec, execJpV0, h]

theorem exec_jpV0_unknown (nnn : Addr) (h : s.params.bnnnMode = .unknown) :
    exec (.jpV0 nnn) s.advancePc = .next (s.advancePc.emit (.diag .unknown (wordA 0xB nnn) s.pc)) := by
  simp [exec, execJpV0, h, State.diagUnknown, encode]

/-- A skip instruction, from when its condition is met and when not (40 R134). -/
theorem skips_of_exec_eq {i : Instr} {c : Bool} {p q : Prop} (he : exec i s.advancePc = .next (s.advancePc.skipIf c))
    (hp : p → c = true) (hq : q → c = false) :
    ∃ t, exec i s.advancePc = .next t ∧ (p → t.pc = s.pc + 4) ∧ (q → t.pc = s.pc + 2) ∧ OnlyPc s t := by
  have hpc : (s.advancePc.skipIf c).pc = if c = true then s.pc + 4 else s.pc + 2 := s.pc_of_skip Iff.rfl
  refine ⟨_, he, fun h => ?_, fun h => ?_, onlyPc_skipIf s c⟩
  · rw [hpc, if_pos (hp h)]
  · rw [hpc, if_neg (Bool.eq_false_iff.1 (hq h))]

/-! ## The obligations -/

/-- Settles O12: the buffer becomes the blank one of its own mode. -/
theorem clsClearsEveryPixel : Obligations.ClsClearsEveryPixel := fun s =>
  ⟨decodeWord_encode .cls rfl, _, rfl, Surface.pixel_blank s.mode, Surface.mode_blank s.mode, rfl, rfl,
    onlyDisplayPcAndOut_setDisp s _⟩

/-- Settles O13: the two branches of RET, an entry in use and none. -/
theorem retPopsOrUnderflows : Obligations.RetPopsOrUnderflows := by
  refine fun s => ⟨decodeWord_encode .ret rfl, fun j hj => ?_, fun h0 => ?_⟩
  · have hsp : s.sp ≠ 0 := fun h => by simp [h] at hj
    obtain ⟨k, hk, htop⟩ := s.top_eq hsp
    obtain rfl : k = j := Fin.ext (by omega)
    exact ⟨_, exec_ret_pop hsp, htop, by simp [hj], rfl, onlyStackAndPc_dropTop s _⟩
  · exact ⟨_, exec_ret_underflow h0, takesFatal_raiseIn s .ret _ _, rfl⟩

/-- Settles O14: JP always jumps; JP V0 jumps or diagnoses, by BNNN_MODE. -/
theorem jumpsSetPc : Obligations.JumpsSetPc := by
  refine fun s nnn => ⟨decodeWord_encode (.jp nnn) rfl, fun hm => decodeWord_encode (.jpV0 nnn) (beq_iff_eq.2 hm),
    ⟨_, rfl, zextAddr_toNat nnn, onlyPc_setPc s _⟩, fun hm => ?_, fun hm => ⟨decodeWord_jpV0_unknown hm nnn, ?_⟩⟩
  · exact ⟨_, exec_jpV0_jump nnn hm, zextAddr_add_zextByte_toNat nnn _, onlyPc_setPc s _⟩
  · exact ⟨_, exec_jpV0_unknown nnn hm, rfl, rfl, onlyPcAndOut_emit s _⟩

/-- Settles O15: the two branches of CALL, room on the stack and none. -/
theorem callPushesOrOverflows : Obligations.CallPushesOrOverflows := by
  refine fun s nnn => ⟨decodeWord_encode (.call nnn) rfl, fun j hj => ?_, fun hfull => ?_⟩
  · have hroom : s.sp.val < 16 := hj ▸ j.isLt
    have hslot (k : Fin 16) : (s.advancePc.push (s.pc + 2) hroom).stack[k] = if k = j then s.pc + 2 else s.stack[k] := by
      simpa [hj, Fin.ext_iff] using s.advancePc.push_slot (s.pc + 2) hroom k k.isLt
    refine ⟨_, exec_call_push nnn hroom, zextAddr_toNat nnn, congrArg (· + 1) hj, ?_, fun k hk => ?_,
      onlyStackAndPc_push s _ _ hroom⟩
    · exact (hslot j).trans (if_pos rfl)
    · exact (hslot k).trans (if_neg hk)
  · exact ⟨_, exec_call_overflow nnn (by omega), takesFatal_raiseIn s (.call nnn) _ _, rfl⟩

/-- Settles O16: CALL pushes the entry that RET then pops. -/
theorem callThenReturnResumes : Obligations.CallThenReturnResumes := by
  intro s nnn hroom
  obtain ⟨-, hcall, -⟩ := callPushesOrOverflows s nnn
  obtain ⟨t, hexec, -, hsp, htop, hothers, hst⟩ := hcall ⟨s.sp.val, hroom⟩ rfl
  obtain ⟨-, hret, -⟩ := retPopsOrUnderflows t
  obtain ⟨u, hexec', hpc, hsp', hstack, htu⟩ := hret ⟨s.sp.val, hroom⟩ hsp
  refine ⟨t, u, hexec, hexec', hpc.trans htop, Fin.ext hsp', fun k hk => ?_, hst.trans htu⟩
  rw [hstack]
  exact hothers k fun h => hk (congrArg Fin.val h)

/-- Settles O17: each compare is a skip, on its own condition. -/
theorem conditionalSkips : Obligations.ConditionalSkips := fun _ x y _ kk =>
  ⟨⟨decodeWord_encode (.seImm x kk) rfl, decodeWord_encode (.sneImm x kk) rfl⟩,
    fun h => decodeWord_compare h x y, fun hl hn => decodeWord_compare_strict hl hn x y,
    skips_of_exec_eq (i := .seImm x kk) rfl beq_iff_eq.2 beq_eq_false_iff_ne.2,
    skips_of_exec_eq (i := .sneImm x kk) rfl bne_iff_ne.2 bne_eq_false_iff_eq.2,
    skips_of_exec_eq (i := .seReg x y) rfl beq_iff_eq.2 beq_eq_false_iff_ne.2,
    skips_of_exec_eq (i := .sneReg x y) rfl bne_iff_ne.2 bne_eq_false_iff_eq.2⟩

end Sys2Proof.Machine
end

section
/-! The register-immediate instructions (41 R150, R151), by what an instruction leaves that writes one register. -/

namespace Sys2Proof.Machine

variable {s : State}

theorem onlyRegsAndPc_setReg (s : State) (x : Nibble) (b : Byte) : OnlyRegsAndPc s (s.advancePc.setReg x b) := by
  simp [OnlyRegsAndPc, SameMem, SameStack, SameTimers, SameDisplay, SameControl, SameOutside, SameModel]

/-- An instruction that writes one register and does nothing else, from what is to hold of the byte it writes. -/
theorem writesOneReg_of_exec_eq {i : Instr} {x : Nibble} {b : Byte} (p : Byte → Prop)
    (he : exec i s.advancePc = .next (s.advancePc.setReg x b)) (hb : p b) :
    ∃ t, exec i s.advancePc = .next t ∧ p (t.reg x) ∧ (∀ y, y ≠ x → t.reg y = s.reg y) ∧ t.pc = s.pc + 2 ∧
      OnlyRegsAndPc s t := by
  refine ⟨_, he, ?_, fun y hy => s.advancePc.setReg_reg_other x y b hy, rfl, onlyRegsAndPc_setReg s x b⟩
  rwa [State.setReg_reg_same]

/-- Settles O18: each writes its destination alone, LD the immediate and ADD the byte sum. -/
theorem immediateLoadAndAdd : Obligations.ImmediateLoadAndAdd := fun s x kk =>
  ⟨⟨decodeWord_encode (.ldImm x kk) rfl, decodeWord_encode (.addImm x kk) rfl⟩,
    writesOneReg_of_exec_eq (· = kk) rfl rfl,
    writesOneReg_of_exec_eq (fun b => b.toNat = ((s.reg x).toNat + kk.toNat) % 256) rfl (BitVec.toNat_add (s.reg x) kk)⟩

end Sys2Proof.Machine
end

section
/-! The register-register ALU (42 R161 to R172): the bitwise instructions write one register, and the others are one
operation, `State.writeFlagAndResult`, whose effect over the naturals follows from what its flag and its result compute. -/

namespace Sys2Proof.Machine

variable {s : State} {x a b : Nibble} {f g : Byte → Byte → Byte} {flag : Nat → Nat → Prop} {result : Nat → Nat → Nat}

/-! ## What the flags and results compute, over natural numbers -/

/-- The byte function `f` is the flag `flag`: 1 where it holds, 0 where it does not (42 R163). -/
def ComputesFlag (f : Byte → Byte → Byte) (flag : Nat → Nat → Prop) : Prop :=
  ∀ u v, f u v = 1 ∧ flag u.toNat v.toNat ∨ f u v = 0 ∧ ¬ flag u.toNat v.toNat

/-- The byte function `g` is `result` modulo 256. -/
def ComputesResult (g : Byte → Byte → Byte) (result : Nat → Nat → Nat) : Prop :=
  ∀ u v, (g u v).toNat = result u.toNat v.toNat % 256

theorem ComputesFlag.swap (h : ComputesFlag f flag) : ComputesFlag (fun u v => f v u) (fun u v => flag v u) :=
  fun u v => h v u

theorem ComputesResult.swap (h : ComputesResult g result) :
    ComputesResult (fun u v => g v u) (fun u v => result v u) := fun u v => h v u

theorem flagByte_cases {c : Bool} {p : Prop} (h : c = true ↔ p) : flagByte c = 1 ∧ p ∨ flagByte c = 0 ∧ ¬ p := by
  rw [← h]
  cases c <;> simp [flagByte]

theorem getLsbD_zero_iff_odd (v : Byte) : v.getLsbD 0 = true ↔ v.toNat % 2 = 1 := by
  rw [← BitVec.testBit_toNat, Nat.testBit_zero, decide_eq_true_iff]

theorem getLsbD_seven_iff_le (v : Byte) : v.getLsbD 7 = true ↔ 128 ≤ v.toNat := by
  rw [← BitVec.msb_eq_getLsbD_last v, BitVec.msb_eq_decide, decide_eq_true_iff]

theorem addFlag_computes : ComputesFlag addFlag (fun u v => 255 < u + v) := fun _ _ => flagByte_cases decide_eq_true_iff

theorem addResult_computes : ComputesResult addResult (fun u v => u + v) := BitVec.toNat_add

theorem subFlag_computes : ComputesFlag subFlag (fun u v => v < u) := fun _ _ => flagByte_cases decide_eq_true_iff

theorem subResult_computes : ComputesResult subResult (fun u v => u + 256 - v) := fun u v => by
  have hv := v.isLt
  simp only [subResult, BitVec.toNat_sub]
  omega

theorem shrFlag_computes : ComputesFlag (fun v _ => shrFlag v) (fun v _ => v % 2 = 1) :=
  fun v _ => flagByte_cases (getLsbD_zero_iff_odd v)

theorem shrResult_computes : ComputesResult (fun v _ => shrResult v) (fun v _ => v / 2) := fun v _ => by
  have hv := v.isLt
  simp only [shrResult, BitVec.toNat_ushiftRight, Nat.shiftRight_eq_div_pow]
  omega

theorem shlFlag_computes : ComputesFlag (fun v _ => shlFlag v) (fun v _ => 128 ≤ v) :=
  fun v _ => flagByte_cases (getLsbD_seven_iff_le v)

theorem shlResult_computes : ComputesResult (fun v _ => shlResult v) (fun v _ => 2 * v) := fun v _ => by
  simp only [shlResult, BitVec.toNat_shiftLeft, Nat.shiftLeft_eq]
  omega

/-! ## The shared operation -/

theorem onlyRegsAndPc_writeFlagAndResult (s : State) (x a b : Nibble) (f g : Byte → Byte → Byte) :
    OnlyRegsAndPc s (s.advancePc.writeFlagAndResult x a b f g) := by
  simp [OnlyRegsAndPc, SameMem, SameStack, SameTimers, SameDisplay, SameControl, SameOutside, SameModel]

/-- VF holds the flag of the operands as they were, unless it is the destination, in either order (42 R161). -/
theorem State.writeFlagAndResult_vf (s : State) (hx : vf ≠ x) :
    (s.writeFlagAndResult x a b f g).reg vf = f (s.reg a) (s.reg b) := by
  cases ho : s.params.aluVfOrder with
  | sampled => rw [s.writeFlagAndResult_sampled _ _ _ _ _ _ ho, if_neg hx, if_pos rfl]
  | reread => rw [s.writeFlagAndResult_reread _ _ _ _ _ _ ho, if_neg hx, if_pos rfl]

theorem aluEffect_writeFlagAndResult (hf : ComputesFlag f flag) (hg : ComputesResult g result) :
    AluEffect s (s.advancePc.writeFlagAndResult x a b f g) x a b flag result := by
  refine ⟨(f (s.reg a) (s.reg b)).toNat, ?flagCases, fun ho => ?sampled, fun ho => ?reread, fun hx => ?vf,
    fun y hyx hyvf => s.advancePc.writeFlagAndResult_reg_other hyx hyvf⟩
  case flagCases => exact (hf _ _).imp (.imp_left (congrArg _)) (.imp_left (congrArg _))
  case sampled => rw [s.advancePc.writeFlagAndResult_sampled _ _ _ _ _ _ ho, if_pos rfl]; exact hg _ _
  case reread =>
    rw [s.advancePc.writeFlagAndResult_reread _ _ _ _ _ _ ho, if_pos rfl, hg, apply_ite BitVec.toNat, apply_ite BitVec.toNat]
    rfl
  case vf => exact congrArg _ (s.advancePc.writeFlagAndResult_vf hx.symm)

/-- An instruction that is the shared operation, from what its flag and its result compute. -/
theorem aluEffect_of_exec_eq {i : Instr} (he : exec i s.advancePc = .next (s.advancePc.writeFlagAndResult x a b f g))
    (hf : ComputesFlag f flag) (hg : ComputesResult g result) :
    ∃ t, exec i s.advancePc = .next t ∧ AluEffect s t x a b flag result ∧ t.pc = s.pc + 2 ∧ OnlyRegsAndPc s t :=
  ⟨_, he, aluEffect_writeFlagAndResult hf hg, by simp, onlyRegsAndPc_writeFlagAndResult s x a b f g⟩

/-! ## The instructions with a parameter of their own -/

theorem exec_subn_asSource (x y : Nibble) (h : s.params.subnMode = .asSource) : exec (.subn x y) s = exec (.sub x y) s := by
  have hflag : subnFlag s.params = subFlag := by funext u v; simp [subnFlag, h]
  have hresult : subnResult s.params = subResult := by funext u v; simp [subnResult, h]
  simp only [exec, execSubn, execSub, hflag, hresult]

theorem exec_subn_reversed (x y : Nibble) (h : s.params.subnMode = .reversed) :
    exec (.subn x y) s = .next (s.writeFlagAndResult x x y (fun u v => subFlag v u) (fun u v => subResult v u)) := by
  have hflag : subnFlag s.params = fun u v => subFlag v u := by funext u v; simp [subnFlag, h]
  have hresult : subnResult s.params = fun u v => subResult v u := by funext u v; simp [subnResult, h]
  simp only [exec, execSubn, hflag, hresult]

theorem shiftSrc_eq {p : Params} {x y z : Nibble}
    (h : (p.shiftSource = .vx ∧ z = x) ∨ (p.shiftSource = .vy ∧ z = y)) : shiftSrc p x y = z := by
  obtain ⟨hs, rfl⟩ | ⟨hs, rfl⟩ := h
  · simp [shiftSrc, hs]
  · simp [shiftSrc, hs]

/-! ## The obligations -/

/-- Settles O20: ADD is the shared operation, with the carry and the sum. -/
theorem addWithCarry : Obligations.AddWithCarry := fun _ x y =>
  ⟨decodeWord_encode (.addReg x y) rfl, aluEffect_of_exec_eq (i := .addReg x y) rfl addFlag_computes addResult_computes⟩

/-- Settles O21: SUB is the shared operation, with the strict comparison and the difference. -/
theorem subWithNoBorrow : Obligations.SubWithNoBorrow := fun _ x y =>
  ⟨decodeWord_encode (.sub x y) rfl, aluEffect_of_exec_eq (i := .sub x y) rfl subFlag_computes subResult_computes⟩

/-- Settles O22: under as_source SUBN's effect is SUB's, and under reversed SUB's with the operands exchanged. -/
theorem subnByMode : Obligations.SubnByMode := by
  refine fun s x y => ⟨decodeWord_encode (.subn x y) rfl, exec_subn_asSource x y, ?_⟩
  cases hm : s.params.subnMode with
  | asSource =>
    obtain ⟨-, t, he, heffect, hpc, hframe⟩ := subWithNoBorrow s x y
    exact ⟨t, (exec_subn_asSource (s := s.advancePc) x y hm).trans he, hpc, hframe, fun _ => heffect, nofun⟩
  | reversed =>
    obtain ⟨t, he, heffect, hpc, hframe⟩ := aluEffect_of_exec_eq (exec_subn_reversed (s := s.advancePc) x y hm)
      subFlag_computes.swap subResult_computes.swap
    exact ⟨t, he, hpc, hframe, nofun, fun _ => heffect⟩

/-- Settles O23: both operands of the shared operation are the shift source. -/
theorem shiftsByOne : Obligations.ShiftsByOne := by
  intro s x y z hz
  obtain rfl : shiftSrc s.params x y = z := shiftSrc_eq hz
  exact ⟨⟨decodeWord_encode (.shr x y) rfl, decodeWord_encode (.shl x y) rfl⟩,
    aluEffect_of_exec_eq (i := .shr x y) rfl shrFlag_computes shrResult_computes,
    aluEffect_of_exec_eq (i := .shl x y) rfl shlFlag_computes shlResult_computes⟩

/-- Settles O19: each writes its destination alone, the copy or the bitwise operation. -/
theorem copyAndLogic : Obligations.CopyAndLogic := fun s x y =>
  ⟨⟨decodeWord_encode (.ldReg x y) rfl, decodeWord_encode (.orReg x y) rfl, decodeWord_encode (.andReg x y) rfl,
      decodeWord_encode (.xorReg x y) rfl⟩,
    writesOneReg_of_exec_eq (· = s.reg y) rfl rfl,
    writesOneReg_of_exec_eq (fun r => ∀ n, r.getLsbD n = ((s.reg x).getLsbD n || (s.reg y).getLsbD n)) rfl
      fun _ => BitVec.getLsbD_or,
    writesOneReg_of_exec_eq (fun r => ∀ n, r.getLsbD n = ((s.reg x).getLsbD n && (s.reg y).getLsbD n)) rfl
      fun _ => BitVec.getLsbD_and,
    writesOneReg_of_exec_eq (fun r => ∀ n, r.getLsbD n = ((s.reg x).getLsbD n != (s.reg y).getLsbD n)) rfl
      fun _ => BitVec.getLsbD_xor⟩

end Sys2Proof.Machine
end

section
/-! The instructions that set I (43 R190, 46 R234, R235) and the random byte (43 R192, R193). -/

namespace Sys2Proof.Machine

variable {s : State}

/-! ## The values written to I, over natural numbers -/

theorem add_zextByte_toNat (a : Word) (b : Byte) : (a + zextByte b).toNat = (a.toNat + b.toNat) % 65536 := by
  have hb : (zextByte b).toNat = b.toNat := BitVec.toNat_setWidth_of_le (by decide)
  rw [BitVec.toNat_add, hb]

theorem glyphAddr_toNat (b : Byte) : (glyphAddr b).toNat = 5 * (b.toNat % 16) := by
  simp only [glyphAddr, BitVec.toNat_ofNat]
  omega

/-! ## The instructions that set I -/

theorem onlyIAndPc_setI (s : State) (a : Word) : OnlyIAndPc s (s.advancePc.setI a) := by
  simp [OnlyIAndPc, SameRegs, SameMem, SameStack, SameTimers, SameDisplay, SameControl, SameOutside, SameModel]

/-- An instruction that sets I and does nothing else, from the number it leaves there. -/
theorem setsI_of_exec_eq {i : Instr} {a : Word} {n : Nat} (he : exec i s.advancePc = .next (s.advancePc.setI a))
    (ha : a.toNat = n) : ∃ t, exec i s.advancePc = .next t ∧ t.i.toNat = n ∧ t.pc = s.pc + 2 ∧ OnlyIAndPc s t :=
  ⟨_, he, ha, rfl, onlyIAndPc_setI s a⟩

/-- Settles O24: each sets I alone, to the immediate, the wrapped sum or the glyph's address. -/
theorem addressRegisterWrites : Obligations.AddressRegisterWrites := fun s nnn x =>
  ⟨⟨decodeWord_encode (.ldI nnn) rfl, decodeWord_encode (.addIVx x) rfl, decodeWord_encode (.ldFVx x) rfl⟩,
    setsI_of_exec_eq (i := .ldI nnn) rfl (zextAddr_toNat nnn),
    setsI_of_exec_eq (i := .addIVx x) rfl (add_zextByte_toNat s.i (s.reg x)),
    setsI_of_exec_eq (i := .ldFVx x) rfl (glyphAddr_toNat (s.reg x))⟩

/-! ## The random byte -/

theorem exec_rnd (s : State) (x : Nibble) (kk : Byte) :
    exec (.rnd x kk) s.advancePc = .next (s.advancePc.setReg x (Config.rand8 s.draws &&& kk)).countDraw := rfl

/-- Settles O25: RND writes one register and counts its draw, so its frame is that of the register write. -/
theorem randomIsMasked : Obligations.RandomIsMasked := by
  intro s x kk
  have hreg : (s.advancePc.setReg x (Config.rand8 s.draws &&& kk)).countDraw.reg x = Config.rand8 s.draws &&& kk :=
    s.advancePc.setReg_reg_same x _
  obtain ⟨hi, hmem, hstack, htimers, hdisp, hcontrol, houtside, -, hout, hturns⟩ :=
    onlyRegsAndPc_setReg s x (Config.rand8 s.draws &&& kk)
  refine ⟨_, exec_rnd s x kk, fun b => ?bits, fun hkk => ?zeroMask, rfl,
    fun y hy => s.advancePc.setReg_reg_other x y _ hy, rfl, hi, hmem, hstack, htimers, hdisp, hcontrol, houtside, hout,
    hturns⟩
  case bits => rw [hreg, BitVec.getLsbD_and]
  case zeroMask => rw [hreg, hkk]; exact BitVec.and_zero

end Sys2Proof.Machine
end

section
/-! Drawing a sprite (44 R200 to R204): the state DRW leaves is named and said once, and every statement about one draw or
two equal draws is read off its rules. -/

namespace Sys2Proof.Machine

variable {s s' : State} {x y x' y' n : Nibble} {r c : Nat}

/-! ## One draw -/

/-- What the blitter leaves of the buffer, and its collision flag, for DRW Vx, Vy, n (44 R200). -/
def State.blit (s : State) (x y n : Nibble) : Blit :=
  Blit.rows ⟨s.disp, false⟩ (s.reg x).toNat (s.reg y).toNat (s.mem.readAll s.addrI n.toNat)

/-- The state after DRW Vx, Vy, n when the sprite lies in memory. -/
def State.draw (s : State) (x y n : Nibble) : State :=
  (s.advancePc.setDisp (s.blit x y n).disp).setReg vf (flagByte (s.blit x y n).col)

theorem exec_drw_draw (x y : Nibble) (h : n = 0 ∨ s.i.toNat + n.toNat ≤ 4096) :
    exec (.drw x y n) s.advancePc = .next (s.draw x y n) := by
  have hread : firstFault readFault s.advancePc.addrI n.toNat = none :=
    (firstFault_read_none ..).2 (h.imp_left (congrArg BitVec.toNat))
  simp only [exec, execDrw, hread]
  rfl

theorem eq_draw_of_exec {t : State} (h : n = 0 ∨ s.i.toNat + n.toNat ≤ 4096)
    (he : exec (.drw x y n) s.advancePc = .next t) : t = s.draw x y n :=
  Host.Outcome.next.inj (he.symm.trans (exec_drw_draw x y h))

theorem exec_drw_outOfBounds (x y : Nibble) (hn : n ≠ 0) (h : 4096 < s.i.toNat + n.toNat) :
    exec (.drw x y n) s.advancePc =
      .next (s.advancePc.raiseIn (.drw x y n) .addressOutOfBounds (some (max s.i.toNat 4096))) := by
  have hread : firstFault readFault s.advancePc.addrI n.toNat = some (.addressOutOfBounds, max s.i.toNat 4096) :=
    firstFault_read_some _ _ (fun h0 => hn (BitVec.eq_of_toNat_eq h0)) h
  simp only [exec, execDrw, hread]

/-- The rows the blitter draws are the sprite's bytes (44 R202). -/
theorem State.rowsSet_iff_spriteSets (s : State) (x y n : Nibble) (r c : Nat) :
    RowsSet s.mode.height s.mode.width (s.reg x).toNat (s.reg y).toNat (s.mem.readAll s.addrI n.toNat) r c ↔
      s.SpriteSets x y n r c := by
  have hrow {k : Nat} (hk : k < n.toNat) :
      (s.mem.readAll s.addrI n.toNat).getD k 0 = s.mem.read (s.i.toNat + k) := by
    rw [List.getD_eq_getElem _ _ (by simpa using hk), Memory.getElem_readAll _ _ _ _ hk]
    rfl
  rw [RowsSet, Memory.length_readAll]
  constructor
  · rintro ⟨k, hk, hr, b, hb, hbit, hc⟩
    exact ⟨k, b, hk, hb, hr, hc, hrow hk ▸ hbit⟩
  · rintro ⟨k, b, hk, hb, hr, hc, hbit⟩
    exact ⟨k, hk, hr, b, hb, (hrow hk).symm ▸ hbit, hc⟩

/-- A sprite has fewer rows than the buffer, so the blitter's law applies (44 R203). -/
theorem State.blitOf_blit (s : State) (x y n : Nibble) :
    BlitOf ⟨s.disp, false⟩ (s.blit x y n) (s.SpriteSets x y n) := by
  have hrows : (s.mem.readAll s.addrI n.toNat).length ≤ s.mode.height := by
    have := s.mode.height_ge
    rw [Memory.length_readAll]; omega
  have hspec := Blit.rows_spec ⟨s.disp, false⟩ (s.reg x).toNat (s.reg y).toNat _ hrows
  have hsets := funext fun r => funext fun c => propext (s.rowsSet_iff_spriteSets x y n r c)
  exact hsets ▸ hspec

theorem State.draw_mode (s : State) (x y n : Nibble) : (s.draw x y n).mode = s.mode := (s.blitOf_blit x y n).1

theorem State.draw_pixel_of_sets (h : s.SpriteSets x y n r c) :
    (s.draw x y n).disp.pixel r c = !s.disp.pixel r c := by
  obtain ⟨-, hset, -, -⟩ := s.blitOf_blit x y n
  exact hset r c h

theorem State.draw_pixel_of_not_sets (h : ¬ s.SpriteSets x y n r c) :
    (s.draw x y n).disp.pixel r c = s.disp.pixel r c := by
  obtain ⟨-, -, hclear, -⟩ := s.blitOf_blit x y n
  exact hclear r c h

/-- VF is the collision (44 R200). -/
theorem State.draw_vf_cases (s : State) (x y n : Nibble) :
    (s.draw x y n).reg 0xF = 1 ∧ (∃ r c, s.SpriteSets x y n r c ∧ s.disp.pixel r c = true) ∨
      (s.draw x y n).reg 0xF = 0 ∧ ¬ ∃ r c, s.SpriteSets x y n r c ∧ s.disp.pixel r c = true := by
  obtain ⟨-, -, -, hcol⟩ := s.blitOf_blit x y n
  have hreg : (s.draw x y n).reg 0xF = flagByte (s.blit x y n).col := State.setReg_reg_same _ _ _
  rw [hreg]
  exact flagByte_cases (hcol.trans (or_iff_right Bool.false_ne_true))

theorem State.draw_reg_other (s : State) (x y n : Nibble) {z : Nibble} (hz : z ≠ 0xF) :
    (s.draw x y n).reg z = s.reg z :=
  State.setReg_reg_other _ _ _ _ hz

theorem State.draw_frame (s : State) (x y n : Nibble) :
    (s.draw x y n).pc = s.pc + 2 ∧ (s.draw x y n).i = s.i ∧ SameMem s (s.draw x y n) ∧ SameStack s (s.draw x y n) ∧
      SameTimers s (s.draw x y n) ∧ SameControl s (s.draw x y n) ∧ SameOutside s (s.draw x y n) ∧
      SameModel s (s.draw x y n) := by
  simp [State.draw, SameMem, SameStack, SameTimers, SameControl, SameOutside, SameModel]

/-- Settles O32: the two outcomes of the range check, a draw and a raise. -/
theorem drwXorsSprite : Obligations.DrwXorsSprite := by
  refine fun s x y n => ⟨decodeWord_encode (.drw x y n) rfl, fun hmem => ?draws, fun hn hout => ?raises⟩
  case draws =>
    refine ⟨_, exec_drw_draw x y hmem, s.draw_mode x y n, fun _ _ => State.draw_pixel_of_sets,
      fun _ _ => State.draw_pixel_of_not_sets, fun hlit => ?_, fun hlit => ?_, fun _ => s.draw_reg_other x y n,
      s.draw_frame x y n⟩
    · exact ((s.draw_vf_cases x y n).resolve_right fun h => h.2 hlit).1
    · exact ((s.draw_vf_cases x y n).resolve_left fun h => hlit h.2).1
  case raises => exact ⟨_, exec_drw_outOfBounds x y hn hout, takesFatal_raiseIn s (.drw x y n) _ _, rfl⟩

/-- Settles O33: of no rows the blitter leaves the buffer and the clear flag it began with. -/
theorem drwOfZeroRows : Obligations.DrwOfZeroRows := by
  intro s x y
  have hblit : s.blit x y 0 = ⟨s.disp, false⟩ := rfl
  have hdisp : (s.draw x y 0).disp = s.disp := congrArg Blit.disp hblit
  have hvf : (s.draw x y 0).reg 0xF = 0 := State.setReg_reg_same _ _ _
  obtain ⟨hpc, hi, hmem, hstack, htimers, hrest⟩ := s.draw_frame x y 0
  exact ⟨_, exec_drw_draw x y (.inl rfl), hdisp, hvf, fun _ => s.draw_reg_other x y 0, hpc, hi, hmem, hstack, htimers,
    hdisp, hrest⟩

/-! ## Two equal draws (44 R204) -/

/-- The second state has the sprite of the first, its coordinates included. -/
structure SameSprite (s s' : State) (x y x' y' : Nibble) : Prop where
  mode : s'.mode = s.mode
  i : s'.i = s.i
  mem : SameMem s s'
  x : s'.reg x' = s.reg x
  y : s'.reg y' = s.reg y

theorem SameSprite.spriteSets_iff (h : SameSprite s s' x y x' y') :
    s'.SpriteSets x' y' n r c ↔ s.SpriteSets x y n r c := by
  obtain ⟨hmode, hi, hmem, hx, hy⟩ := h
  simp only [State.SpriteSets, hmode, hi, hmem _, hx, hy]

section
variable (hd : s'.disp = (s.draw x y n).disp) (h : SameSprite s s' x y x' y')
include hd h

/-- Each pixel of the sprite is inverted twice, every other pixel never. -/
theorem draw_draw_disp : (s'.draw x' y' n).disp = s.disp := by
  have hmode : (s'.draw x' y' n).mode = s.mode := (s'.draw_mode x' y' n).trans h.mode
  refine Surface.eq_of_pixel_eq _ _ hmode fun r c => ?_
  by_cases hset : s.SpriteSets x y n r c
  · rw [State.draw_pixel_of_sets (h.spriteSets_iff.2 hset), hd, State.draw_pixel_of_sets hset, Bool.not_not]
  · rw [State.draw_pixel_of_not_sets (mt h.spriteSets_iff.1 hset), hd, State.draw_pixel_of_not_sets hset]

/-- The second draw meets the pixels that the first one lit (44 R200; log entry 18). -/
theorem second_draw_meets_lit_iff :
    (∃ r c, s'.SpriteSets x' y' n r c ∧ s'.disp.pixel r c = true) ↔
      ∃ r c, s.SpriteSets x y n r c ∧ s.disp.pixel r c = false := by
  refine exists_congr fun r => exists_congr fun c => ?_
  rw [h.spriteSets_iff, hd]
  refine and_congr_right fun hset => ?_
  rw [State.draw_pixel_of_sets hset, Bool.not_eq_true']

end

/-- Settles O34: the first draw fixes the second state's buffer, and the second draw inverts the same pixels. -/
theorem drawingTwiceRestores : Obligations.DrawingTwiceRestores := by
  intro s t s' x y x' y' n hmem he hd hi hm hx hy
  obtain rfl := eq_draw_of_exec hmem he
  have hmode : s'.mode = s.mode := (congrArg Surface.mode hd).trans (s.draw_mode x y n)
  have hsame : SameSprite s s' x y x' y' := ⟨hmode, hi, hm, hx, hy⟩
  have hvf := s'.draw_vf_cases x' y' n
  rw [second_draw_meets_lit_iff hd hsame] at hvf
  refine ⟨_, exec_drw_draw x' y' (hi ▸ hmem), draw_draw_disp hd hsame, fun hunlit => ?_, fun hlit => ?_⟩
  · exact (hvf.resolve_right fun h => h.2 hunlit).1
  · refine (hvf.resolve_left ?_).1
    rintro ⟨-, r, c, hset, hunlit⟩
    exact Bool.false_ne_true (hunlit.symm.trans (hlit r c hset))

/-- A sprite sets a pixel when one of its bytes is not zero. -/
theorem State.exists_spriteSets_iff (s : State) (x y n : Nibble) :
    (∃ r c, s.SpriteSets x y n r c) ↔ ∃ k, k < n.toNat ∧ s.mem.read (s.i.toNat + k) ≠ 0 := by
  constructor
  · rintro ⟨r, c, k, b, hk, -, -, -, hbit⟩
    exact ⟨k, hk, fun h0 => by simp [h0] at hbit⟩
  · rintro ⟨k, hk, hne⟩
    obtain ⟨b, hb, hbit⟩ : ∃ b, b < 8 ∧ (s.mem.read (s.i.toNat + k)).getLsbD b = true := by
      by_contra hnone
      exact hne (BitVec.eq_of_getLsbD_eq fun b hb => by simpa using fun hbit => hnone ⟨b, hb, hbit⟩)
    exact ⟨_, _, k, 7 - b, hk, by omega, rfl, rfl, by rwa [show 7 - (7 - b) = b by omega]⟩

/-- Settles O58: by O34, where the first draw met no lit pixel every pixel of the sprite was unlit, and an all-zero sprite
has none. -/
theorem secondDrawReportsCollision : Obligations.SecondDrawReportsCollision := by
  intro s t s' x y x' y' n hmem he hd hi hm hx hy
  obtain ⟨u, hu, -, hunlit, hlit⟩ := drawingTwiceRestores s t s' x y x' y' n hmem he hd hi hm hx hy
  refine ⟨u, hu, fun hvf hbyte => ?_, fun hzero => ?_⟩
  · obtain rfl := eq_draw_of_exec hmem he
    obtain ⟨h1, -⟩ | ⟨-, hnone⟩ := s.draw_vf_cases x y n
    · exact absurd (h1.symm.trans hvf) (by decide)
    · obtain ⟨r, c, hset⟩ := (s.exists_spriteSets_iff x y n).2 hbyte
      exact hunlit ⟨r, c, hset, Bool.eq_false_iff.2 fun hp => hnone ⟨r, c, hset, hp⟩⟩
  · refine hlit fun r c hset => ?_
    obtain ⟨k, hk, hne⟩ := (s.exists_spriteSets_iff x y n).1 ⟨r, c, hset⟩
    exact absurd (hzero k hk) hne

end Sys2Proof.Machine
end

section
/-! The key tests (45 R220 to R222): skips by the key's latch bit, and the raise for a number that names no key. -/

namespace Sys2Proof.Machine

variable {s : State} {x : Nibble} {k : Fin 16}

theorem exec_skp_key (hk : (s.reg x).toNat = k.val) :
    exec (.skp x) s.advancePc = .next (s.advancePc.skipIf s.key[k]) := by
  have hx : ¬ 15 < (s.reg x).toNat := by omega
  rw [← s.keyPressed_fin k, ← hk]
  exact if_neg hx

theorem exec_sknp_key (hk : (s.reg x).toNat = k.val) :
    exec (.sknp x) s.advancePc = .next (s.advancePc.skipIf (!s.key[k])) := by
  have hx : ¬ 15 < (s.reg x).toNat := by omega
  rw [← s.keyPressed_fin k, ← hk]
  exact if_neg hx

theorem exec_skp_outOfRange (hx : 15 < (s.reg x).toNat) :
    exec (.skp x) s.advancePc =
      .next (s.advancePc.raiseIn (.skp x) .keyIndexOutOfRange (some (s.reg x).toNat)) := if_pos hx

theorem exec_sknp_outOfRange (hx : 15 < (s.reg x).toNat) :
    exec (.sknp x) s.advancePc =
      .next (s.advancePc.raiseIn (.sknp x) .keyIndexOutOfRange (some (s.reg x).toNat)) := if_pos hx

/-- Settles O27: each test is a skip, on the latch bit or its negation, or a raise. -/
theorem keyTests : Obligations.KeyTests := by
  refine fun s x => ⟨⟨decodeWord_encode (.skp x) rfl, decodeWord_encode (.sknp x) rfl⟩, fun k hk => ⟨?_, ?_⟩,
    fun hx => ⟨?_, ?_⟩⟩
  · exact skips_of_exec_eq (exec_skp_key hk) id id
  · exact skips_of_exec_eq (exec_sknp_key hk) (congrArg not) (congrArg not)
  · exact ⟨_, exec_skp_outOfRange hx, takesFatal_raiseIn s (.skp x) _ _, rfl⟩
  · exact ⟨_, exec_sknp_outOfRange hx, takesFatal_raiseIn s (.sknp x) _ _, rfl⟩

end Sys2Proof.Machine
end

section
/-! The key wait and the timer transfers (46 R230 to R233): how Fx0A begins a wait, how the engine's polls end it, and
what the three timer transfers copy. -/

namespace Sys2Proof.Machine

variable {s s' : State} {w : Wait} {k : Nat}

/-! ## A poll of a key wait (46 R231) -/

theorem State.poll_stop (w : Wait) (hs : s.stopReq = true) :
    s.poll w = ((s.setWaiting none).setPc w.addr).observeStop := if_pos hs

theorem State.poll_pressed (w : Wait) (hs : s.stopReq = false) (hk : s.firstPressed = some k) :
    s.poll w = (s.setReg w.x (BitVec.ofNat 8 k)).setWaiting none := by
  simp [State.poll, hs, hk]

theorem State.poll_unpressed (w : Wait) (hs : s.stopReq = false) (hk : s.firstPressed = none) : s.poll w = s := by
  simp [State.poll, hs, hk]

theorem State.firstPressed_of_lowest {k : Fin 16} (hk : s.key[k] = true)
    (hlow : ∀ j : Fin 16, j < k → s.key[j] = false) :
    s.firstPressed = some k.val := by
  refine (s.firstPressed_eq_some k).2 ⟨k.isLt, (s.keyPressed_fin k).trans hk, fun j hj => ?_⟩
  exact (s.keyPressed_fin ⟨j, hj.trans k.isLt⟩).trans (hlow _ hj)

theorem State.firstPressed_of_unpressed (h : ∀ j : Fin 16, s.key[j] = false) : s.firstPressed = none :=
  s.firstPressed_eq_none.2 fun j hj => (s.keyPressed_fin ⟨j, hj⟩).trans (h _)

/-- In the turn of an engine that may go on and waits, the step is a poll (46 R231, 60 R303). -/
theorem State.EngineTurn.step_poll (h : s.EngineTurn s') (hr : s.run ≠ .stopped) (hf : s.fatal = none)
    (hw : s.waiting = some w) : Machine.step s = .next (s'.poll w) := by
  rw [h.step]
  obtain ⟨ts, rfl⟩ := h.exists_turns
  exact engineStep_poll _ w hr hf hw

/-- Settles O10: the turn is a poll, and its three cases are those of the Stop request and the key scan. -/
theorem pollEndsKeyWait : Obligations.PollEndsKeyWait := by
  intro s s' w he hr hf hw
  rw [he.step_poll hr hf hw]
  obtain ⟨ts, rfl⟩ := he.exists_turns
  refine ⟨fun hs => ?stop, fun k hs hk hlow => ?pressed, fun hs hnone => ?unpressed⟩
  case stop =>
    refine ⟨_, congrArg _ (State.poll_stop w hs), ?_⟩
    simpa [SameRegs, SameMem, SameStack, SameTimers, SameDisplay, SameOutside, State.reg_of_turns] using hf
  case pressed =>
    have hbyte : (BitVec.ofNat 8 k.val).toNat = k.val := Nat.mod_eq_of_lt (by omega)
    refine ⟨_, congrArg _ (State.poll_pressed w hs (State.firstPressed_of_lowest hk hlow)), rfl,
      (congrArg _ (State.setReg_reg_same ..)).trans hbyte, fun y hy => State.setReg_reg_other _ _ y _ hy, ?_⟩
    simpa [SameMem, SameStack, SameTimers, SameDisplay, SameOutside] using ⟨hs, hf⟩
  case unpressed => exact congrArg _ (State.poll_unpressed w hs (State.firstPressed_of_unpressed hnone))

/-! ## Fx0A and the timer transfers -/

theorem exec_ldVxK (s : State) (x : Nibble) :
    exec (.ldVxK x) s.advancePc = .next (s.advancePc.setWaiting (some ⟨x, s.pc⟩)) := by
  simp [exec, execLdVxK]

/-- Settles O28: Fx0A is one update, of the wait state. -/
theorem keyWaitBegins : Obligations.KeyWaitBegins := by
  refine fun s x => ⟨_, exec_ldVxK s x, ?_⟩
  simp [SameRegs, SameMem, SameStack, SameTimers, SameDisplay, SameOutside, SameModel]

theorem onlyTimersAndPc_setDt (s : State) (b : Byte) : OnlyTimersAndPc s (s.advancePc.setDt b) := by
  simp [OnlyTimersAndPc, SameRegs, SameMem, SameStack, SameDisplay, SameControl, SameOutside, SameModel]

theorem onlyTimersAndPc_setSt (s : State) (b : Byte) : OnlyTimersAndPc s (s.advancePc.setSt b) := by
  simp [OnlyTimersAndPc, SameRegs, SameMem, SameStack, SameDisplay, SameControl, SameOutside, SameModel]

/-- Settles O26: each transfer is one update, of a register or of one timer. -/
theorem timerTransfers : Obligations.TimerTransfers := fun s x =>
  ⟨⟨decodeWord_encode (.ldVxDt x) rfl, decodeWord_encode (.ldDtVx x) rfl, decodeWord_encode (.ldStVx x) rfl⟩,
    writesOneReg_of_exec_eq (· = s.dt) rfl rfl, ⟨_, rfl, rfl, rfl, rfl, onlyTimersAndPc_setDt s _⟩,
    ⟨_, rfl, rfl, rfl, rfl, onlyTimersAndPc_setSt s _⟩⟩

end Sys2Proof.Machine
end

section
/-! The memory transfers Fx33, Fx55 and Fx65 (46 R236 to R239): each passes its range check and moves its bytes, or
raises the fatal condition of the lowest offending address. -/

namespace Sys2Proof.Machine

variable {s t : State} {x y : Nibble} {m : Memory} {l : List Byte} {a b k : Nat} {kind : FatalKind}

/-! ## The bytes stored and loaded -/

theorem Memory.read_storeAll_stored (hm : m.wf = true) (hk : k < l.length) (hglyph : 80 ≤ a + k)
    (hmem : a + l.length ≤ 4096) : (m.storeAll a l).read (a + k) = l.getD k 0 := by
  have hend : a + k < a + l.length := Nat.add_lt_add_left hk a
  rw [Memory.read_storeAll hm, if_pos ⟨Nat.le_add_right a k, hend, hglyph, hend.trans_le hmem⟩,
    Nat.add_sub_cancel_left]

theorem Memory.read_storeAll_other (hm : m.wf = true) (h : b < a ∨ a + l.length ≤ b ∨ b < 80) :
    (m.storeAll a l).read b = m.read b := by
  by_contra hne
  obtain ⟨hlo, hhi, hglyph, -⟩ := Memory.storeAll_changes hm hne
  simp only [glyphLen] at hglyph
  omega

theorem bcdDigits_toNat (v : Byte) :
    ((bcdDigits v).getD 0 0).toNat = v.toNat / 100 ∧ ((bcdDigits v).getD 1 0).toNat = v.toNat / 10 % 10 ∧
      ((bcdDigits v).getD 2 0).toNat = v.toNat % 10 := by
  have := v.isLt
  simp only [bcdDigits, List.getD_cons_zero, List.getD_cons_succ, BitVec.toNat_ofNat]
  omega

/-- Fx65 loads V0..Vx, both ends (46 R238, R239). -/
theorem State.setRegs_loadRegs_reg_loaded (s : State) (h : y ≤ x) :
    (s.setRegs (loadRegs m a (regCount x) s.v)).reg y = m.read (a + y.toNat) :=
  (loadRegs_getElem m a (regCount x) s.v y.toNat y.isLt).trans (if_pos (Nat.lt_succ_of_le h))

/-! ## The step of I (46 R237, R238) -/

theorem State.stepI_i_unchanged (s : State) (x : Nibble) (h : s.params.ldstIMode = .unchanged) :
    (s.stepI x).i = s.i := by
  simp [State.stepI_i, h]

theorem State.stepI_i_increment (s : State) (x : Nibble) (h : s.params.ldstIMode = .increment) :
    (s.stepI x).i.toNat = (s.i.toNat + x.toNat + 1) % 65536 := by
  simp [State.stepI_i, h, Nat.add_assoc]

/-! ## Frames -/

theorem onlyMemIAndPc_setMem (s : State) (m : Memory) : OnlyMemIAndPc s (s.advancePc.setMem m) := by
  simp [OnlyMemIAndPc, SameRegs, SameStack, SameTimers, SameDisplay, SameControl, SameOutside, SameModel]

theorem OnlyMemIAndPc.stepI (h : OnlyMemIAndPc s t) (x : Nibble) : OnlyMemIAndPc s (t.stepI x) := by
  simpa [OnlyMemIAndPc, SameRegs, SameStack, SameTimers, SameDisplay, SameControl, SameOutside, SameModel] using h

theorem onlyRegsIAndPc_setRegs_stepI (s : State) (v : Vector Byte 16) (x : Nibble) :
    OnlyRegsIAndPc s ((s.advancePc.setRegs v).stepI x) := by
  simp [OnlyRegsIAndPc, SameMem, SameStack, SameTimers, SameDisplay, SameControl, SameOutside, SameModel]

/-! ## Range checks -/

/-- A range of at most 16 bytes that leaves memory starts far above the glyph table, so the bounds fault is the first
one, protected table or not (20 R84, R85). -/
theorem firstFault_write_outOfBounds (p : Params) {n : Nat} (hn : n < 16) (h : 4096 ≤ a + n) :
    firstFault (writeFault p) a (n + 1) = some (.addressOutOfBounds, max a 4096) :=
  firstFault_write_bounds p a (n + 1) n.succ_ne_zero (Nat.lt_succ_of_le h) fun _ => by simp only [glyphLen]; omega

/-! ## What each instruction does, by its range check -/

theorem exec_ldBVx_store (x : Nibble) (h : firstFault (writeFault s.params) s.i.toNat 3 = none) :
    exec (.ldBVx x) s.advancePc = .next (s.advancePc.setMem (s.mem.storeAll s.i.toNat (bcdDigits (s.reg x)))) := by
  simp [exec, execLdBVx, State.addrI, h]

theorem exec_ldBVx_raise (x : Nibble) (h : firstFault (writeFault s.params) s.i.toNat 3 = some (kind, a)) :
    exec (.ldBVx x) s.advancePc = .next (s.advancePc.raiseIn (.ldBVx x) kind (some a)) := by
  simp [exec, execLdBVx, State.addrI, h]

theorem exec_ldMemVx_store (h : firstFault (writeFault s.params) s.i.toNat (regCount x) = none) :
    exec (.ldMemVx x) s.advancePc =
      .next ((s.advancePc.setMem (s.mem.storeAll s.i.toNat (s.firstRegs (regCount x)))).stepI x) := by
  simp [exec, execLdMemVx, State.addrI, State.firstRegs, h]

theorem exec_ldMemVx_raise (h : firstFault (writeFault s.params) s.i.toNat (regCount x) = some (kind, a)) :
    exec (.ldMemVx x) s.advancePc = .next (s.advancePc.raiseIn (.ldMemVx x) kind (some a)) := by
  simp [exec, execLdMemVx, State.addrI, h]

theorem exec_ldVxMem_load (h : firstFault readFault s.i.toNat (regCount x) = none) :
    exec (.ldVxMem x) s.advancePc =
      .next ((s.advancePc.setRegs (loadRegs s.mem s.i.toNat (regCount x) s.v)).stepI x) := by
  simp [exec, execLdVxMem, State.addrI, h]

theorem exec_ldVxMem_raise (h : firstFault readFault s.i.toNat (regCount x) = some (kind, a)) :
    exec (.ldVxMem x) s.advancePc = .next (s.advancePc.raiseIn (.ldVxMem x) kind (some a)) := by
  simp [exec, execLdVxMem, State.addrI, h]

/-- An instruction that raises takes its fatal condition, and keeps the turns (60 R301, R302). -/
theorem raises_of_exec_eq {i : Instr} {info : Option Nat}
    (he : exec i s.advancePc = .next (s.advancePc.raiseIn i kind info)) :
    ∃ t, exec i s.advancePc = .next t ∧ TakesFatal s t kind (some (encode i)) info ∧ t.turns = s.turns :=
  ⟨_, he, takesFatal_raiseIn s i kind info, rfl⟩

/-! ## The obligations -/

/-- Settles O29: three checked stores, of the digits, or the raise of the range check. -/
theorem bcdStoresDigits : Obligations.BcdStoresDigits := by
  refine fun s x hwf => ⟨decodeWord_encode (.ldBVx x) rfl, fun hmem hglyph => ?stores, fun hout => ?outOfBounds,
    fun hfault hlow => ?glyphWrite⟩
  case stores =>
    have hstored (k : Nat) (hk : k < 3) (h80 : 80 ≤ s.i.toNat + k) :
        (s.mem.storeAll s.i.toNat (bcdDigits (s.reg x))).read (s.i.toNat + k) = (bcdDigits (s.reg x)).getD k 0 :=
      Memory.read_storeAll_stored hwf hk h80 hmem
    obtain ⟨hhundreds, htens, hunits⟩ := bcdDigits_toNat (s.reg x)
    exact ⟨_, exec_ldBVx_store x (firstFault_write_none _ _ _ hmem hglyph),
      fun h80 => (congrArg _ (hstored 0 (by decide) h80)).trans hhundreds,
      fun h80 => (congrArg _ (hstored 1 (by decide) h80)).trans htens,
      fun h80 => (congrArg _ (hstored 2 (by decide) h80)).trans hunits,
      fun b hb => Memory.read_storeAll_other hwf hb, rfl, rfl, onlyMemIAndPc_setMem s _⟩
  case outOfBounds =>
    exact raises_of_exec_eq (exec_ldBVx_raise x (firstFault_write_outOfBounds _ (by decide) hout))
  case glyphWrite => exact raises_of_exec_eq (exec_ldBVx_raise x (firstFault_write_glyph _ _ _ (by decide) hlow hfault))

/-- Settles O30: the checked stores of the registers and the step of I, or the raise of the range check. -/
theorem registersAreStored : Obligations.RegistersAreStored := by
  refine fun s x hwf => ⟨decodeWord_encode (.ldMemVx x) rfl, fun hmem hglyph => ?stores, fun hout => ?outOfBounds,
    fun hfault hlow => ?glyphWrite⟩
  case stores =>
    have hlen : (s.firstRegs (regCount x)).length = x.toNat + 1 := s.length_firstRegs x
    refine ⟨_, exec_ldMemVx_store (firstFault_write_none _ _ _ hmem hglyph), fun k hk h80 => ?_, fun b hb => ?_,
      (s.advancePc.setMem _).stepI_i_unchanged x, (s.advancePc.setMem _).stepI_i_increment x, State.stepI_pc ..,
      (onlyMemIAndPc_setMem s _).stepI x⟩
    · have hcount : k.toNat < x.toNat + 1 := Nat.lt_succ_of_le hk
      rw [State.stepI_mem, State.setMem_mem, Memory.read_storeAll_stored hwf (by omega) h80 (by omega),
        s.getD_firstRegs x _ hcount, BitVec.ofNat_toNat, BitVec.setWidth_eq]
    · rw [State.stepI_mem, State.setMem_mem, Memory.read_storeAll_other hwf (by omega)]
  case outOfBounds =>
    exact raises_of_exec_eq (exec_ldMemVx_raise (firstFault_write_outOfBounds _ x.isLt hout))
  case glyphWrite =>
    exact raises_of_exec_eq (exec_ldMemVx_raise (firstFault_write_glyph _ _ _ (Nat.succ_ne_zero _) hlow hfault))

/-- Settles O31: the load of the registers and the step of I, or the raise of the range check. -/
theorem registersAreLoaded : Obligations.RegistersAreLoaded := by
  refine fun s x => ⟨decodeWord_encode (.ldVxMem x) rfl, fun hmem => ?loads, fun hout => ?outOfBounds⟩
  case loads =>
    exact ⟨_, exec_ldVxMem_load ((firstFault_read_none ..).2 (.inr hmem)),
      fun k hk => (State.stepI_reg ..).trans (s.advancePc.setRegs_loadRegs_reg_loaded hk),
      fun k hk => (State.stepI_reg ..).trans (s.advancePc.setRegs_loadRegs_reg_above hk),
      (s.advancePc.setRegs _).stepI_i_unchanged x, (s.advancePc.setRegs _).stepI_i_increment x, State.stepI_pc ..,
      onlyRegsIAndPc_setRegs_stepI s _ x⟩
  case outOfBounds =>
    exact raises_of_exec_eq
      (exec_ldVxMem_raise (firstFault_read_some _ _ (Nat.succ_ne_zero _) (Nat.lt_succ_of_le hout)))

end Sys2Proof.Machine
end

section
/-! The display mode switches LOW and HIGH (47 R260 to R263): one operation, which clears the buffer of a new mode and
reports its dimensions, or does nothing. -/

namespace Sys2Proof.Machine

variable {s : State} {m old : Mode}

/-! ## The mode switch -/

theorem State.setMode_same (h : s.mode = m) : s.setMode m = s := if_pos h.symm

theorem State.setMode_other (h : s.mode ≠ m) :
    s.setMode m = (s.setDisp (Surface.blank m)).emit (.geometry m.width m.height) := if_neg h.symm

@[simp] theorem State.setMode_mode (s : State) (m : Mode) : (s.setMode m).mode = m := by
  obtain ⟨hm, heq⟩ | ⟨-, heq⟩ := s.setMode_cases m
  · rw [heq, hm]
  · rw [heq]
    exact Surface.mode_blank m

theorem onlyDisplayPcAndOut_setMode (s : State) (m : Mode) : OnlyDisplayPcAndOut s (s.advancePc.setMode m) := by
  simp [OnlyDisplayPcAndOut, SameRegs, SameMem, SameStack, SameTimers, SameControl, SameOutside]

/-- An instruction that is the mode switch, from the other mode and from its own. -/
theorem switchesMode_of_exec_eq {i : Instr} (he : exec i s.advancePc = .next (s.advancePc.setMode m)) (hne : old ≠ m) :
    ∃ t, exec i s.advancePc = .next t ∧ t.mode = m ∧ t.pc = s.pc + 2 ∧ OnlyDisplayPcAndOut s t ∧
      (s.mode = old → (∀ r c, t.disp.pixel r c = false) ∧ t.out = .geometry m.width m.height :: s.out) ∧
      (s.mode = m → t.disp = s.disp ∧ t.out = s.out) := by
  refine ⟨_, he, State.setMode_mode .., State.setMode_pc .., onlyDisplayPcAndOut_setMode s m, fun hold => ?effective,
    fun hsame => ?unchanged⟩
  case effective =>
    have hother : s.advancePc.mode ≠ m := fun h => hne (hold.symm.trans h)
    rw [State.setMode_other hother]
    exact ⟨Surface.pixel_blank m, rfl⟩
  case unchanged =>
    rw [State.setMode_same (s := s.advancePc) hsame]
    exact ⟨rfl, rfl⟩

/-- Settles O35: LOW and HIGH are the mode switch to small and to big. -/
theorem modeSwitches : Obligations.ModeSwitches := fun _ =>
  ⟨⟨decodeWord_encode .low rfl, decodeWord_encode .high rfl⟩,
    switchesMode_of_exec_eq (i := .low) (old := .big) rfl (by decide),
    switchesMode_of_exec_eq (i := .high) (old := .small) rfl (by decide)⟩

end Sys2Proof.Machine
end

section
/-! The engine with nothing to do: stopped or faulted it makes no step, and at a self-jump its step changes nothing
(60 R303, R342, R343). -/

namespace Sys2Proof.Machine

variable {s s' : State}

/-- Settles O9: the turn is the engine's, and the engine is idle. -/
theorem stoppedEngineDoesNothing : Obligations.StoppedEngineDoesNothing := by
  intro s s' he hidle
  rw [he.step]
  obtain ⟨ts, rfl⟩ := he.exists_turns
  exact engineStep_idle _ hidle

/-- An address of 12 bits is its own zero-extended low 12 bits. -/
theorem zextAddr_setWidth {a : Word} (h : a.toNat < 4096) : zextAddr (a.setWidth 12) = a := by
  apply BitVec.eq_of_toNat_eq
  rw [zextAddr_toNat, BitVec.toNat_setWidth, Nat.mod_eq_of_lt h]

theorem State.atSelfJump_iff (s : State) :
    s.AtSelfJump = true ↔ s.fatal = none ∧ s.fetchWord = wordA 0x1 (s.pc.setWidth 12) ∧ s.pc.toNat < 4096 := by
  simp [State.AtSelfJump, and_assoc]

/-- A self-jump undoes the advance of `pc` and does nothing else (60 R343). -/
theorem exec_selfJump (h : s.pc.toNat < 4096) : exec (.jp (s.pc.setWidth 12)) s.advancePc = .next s :=
  congrArg (fun a => Host.Outcome.next (s.setPc a)) (zextAddr_setWidth h)

/-- Settles O11: the turn is an iteration, and it runs the self-jump. -/
theorem selfJumpChangesNothing : Obligations.SelfJumpChangesNothing := by
  intro s s' he ⟨hr, hf, hw, hs⟩ hlegal hjump
  obtain ⟨-, hword, hpc⟩ := s.atSelfJump_iff.1 hjump
  have hdecode : decodeWord s.params s.fetchWord = .ok (.jp (s.pc.setWidth 12)) := by
    rw [hword]
    exact decodeWord_encode (.jp (s.pc.setWidth 12)) rfl
  rw [he.step_iteration hr hf hw]
  obtain ⟨ts, rfl⟩ := he.exists_turns
  exact (iteration_exec { s with turns := ts } _ hs hlegal hdecode).trans (exec_selfJump hpc)

end Sys2Proof.Machine
end

section
/-! Fatal conditions are the engine's, and precise (60 R301, R302): no other agent latches a record, and the engine only
by the raise of a fetch or of an instruction, whose word is the fetched one. -/

namespace Sys2Proof.Machine

variable {s t : State}

namespace State.Safe

theorem start (h : s.Safe) : s.start.Safe := by unfold State.start; split <;> exact h

theorem stop (h : s.Safe) : s.stop.Safe := by unfold State.stop; split <;> exact h

theorem load (h : s.Safe) (program : List Byte) : (s.load program).Safe := by
  unfold State.load; split <;> [exact h; rfl]

/-- A Restart's reset clears the latch (70 R356). -/
theorem resetAndStart (s : State) : s.resetAndStart.Safe := by rw [resetAndStart_eq]; rfl

theorem restart (h : s.Safe) : s.restart.Safe := by
  unfold State.restart
  split
  · split <;> [exact resetAndStart s; exact h]
  · exact h.stop
  · exact h

theorem poll (h : s.Safe) (w : Wait) : (s.poll w).Safe := by
  obtain ⟨-, e⟩ | ⟨_, -, -, e⟩ | ⟨-, -, e⟩ := s.poll_cases w <;> rw [e] <;> exact h

/-- No agent but the engine latches a record. -/
theorem takesTurn (h : s.Safe) {u : Turn} (hne : u ≠ .engine) (hu : TakesTurn s u t) : t.Safe := by
  cases hu with
  | engine => exact absurd rfl hne
  | restartFinish => exact resetAndStart s
  | load program => exact h.load program
  | start => exact h.start
  | stop => exact h.stop
  | restart => exact h.restart
  | timeStep ms => rw [State.timeStep_eq]; exact h
  | restartIdle | setKey | snapshot | setDebug | setCounter => exact h

end State.Safe

/-- A record latched in an engine's turn comes from its iteration. -/
theorem iteration_of_engineStep_unsafe (h : s.Safe) (he : engineStep s = .next t) (ht : ¬ t.Safe) :
    s.run ≠ .stopped ∧ s.waiting = none ∧ iteration s = .next t := by
  obtain ⟨-, rfl⟩ | ⟨-, -, w, -, rfl⟩ | ⟨hr, -, hw, hi⟩ := engineStep_cases s t he
  · exact absurd h ht
  · exact absurd (h.poll w) ht
  · exact ⟨hr, hw, hi⟩

/-- An instruction that raises was fetched as its own encoding: the two whose words can differ from it raise nothing
(30 R109, 60 R301). -/
theorem encode_of_exec_unsafe {p : Params} {w : Word} {i : Instr} (hd : decodeWord p w = .ok i) (h : s.Safe)
    (hx : exec i s = .next t) (ht : ¬ t.Safe) : encode i = w := by
  obtain ⟨-, heq | ⟨-, ⟨x, y, hi⟩, -⟩⟩ := encodeInvertsDecode p w i hd
  · exact heq
  · refine absurd ?_ ht
    rcases hi with rfl | rfl <;> cases hx <;> exact (State.skipIf_fatal ..).trans h

/-- Settles O43: the turn is an iteration of the engine, and the record is the fetch's or the instruction's. -/
theorem fatalConditionsArePrecise : Obligations.FatalConditionsArePrecise := by
  intro s t h hstep ht
  obtain ⟨s', he, e⟩ | ⟨-, -, e⟩ | ⟨u, rest, -, hne, e⟩ := step_cases s <;> rw [hstep] at e
  case inr.inl =>
    cases e
    exact absurd (State.Safe.resetAndStart s) ht
  case inr.inr =>
    have hless : ({ s with turns := rest } : State).Safe := h
    exact absurd (hless.takesTurn hne (takeTurn_cases u _ t e.symm)) ht
  case inl =>
    obtain ⟨ts, rfl⟩ := he.exists_turns
    obtain ⟨hr, hw, hi⟩ := iteration_of_engineStep_unsafe (s := { s with turns := ts }) h e.symm ht
    obtain ⟨-, rfl⟩ | ⟨kind, info, hs, hfault, -⟩ | ⟨i, -, hlegal, hd, hx⟩ | ⟨_, -, -, -, rfl⟩ :=
      iteration_cases _ t hi
    · exact absurd h ht
    · obtain ⟨t', ht', hfatal, hturns⟩ := step_fetchFault he ⟨hr, h, hw, hs⟩ hfault
      cases hstep.symm.trans ht'
      have hillegal : ¬ s.FetchLegal := fun hl => nomatch (s.fetchFault_eq_none.2 hl).symm.trans hfault
      exact ⟨_, kind, none, _, he, hfatal, hturns, .inl ⟨rfl, hillegal⟩⟩
    · have hword := encode_of_exec_unsafe (s := State.advancePc { s with turns := ts }) hd h hx ht
      obtain ⟨kind, info, rfl⟩ | hc := exec_cases i _ t hx
      · exact ⟨_, kind, _, info, he, takesFatal_raiseIn _ i kind info, rfl, .inr ⟨congrArg some hword, hlegal⟩⟩
      · obtain ⟨-, -, hfatal⟩ := hc.control
        exact absurd (hfatal.trans h) ht
    · exact absurd h ht

end Sys2Proof.Machine
end

section
/-! The lifecycle ports: Start, Stop, and Restart from a stopped and from a running core (60 R316 to R320, 70 R356). -/

namespace Sys2Proof.Machine

variable {s : State} {u : Turn} {rest : List Turn}

/-- The step of a listed turn is that turn, taken in the state less it (20 R90). -/
theorem step_of_turns (h : s.turns = u :: rest) : step s = takeTurn u { s with turns := rest } := by
  simp only [step, nextTurn, h]

/-- With the register file cleared, every register is 0. -/
theorem State.reg_of_v_cleared (h : s.v = Vector.replicate 16 0) (y : Nibble) : s.reg y = 0 := by
  simp [State.reg, h]

theorem State.start_enabled (hr : s.run = .stopped) (hl : s.loaded = true) (hf : s.fatal = none) :
    s.start = { s with run := .running, ran := true } := if_pos ⟨hr, hl, hf⟩

theorem State.start_ignored (h : s.run ≠ .stopped ∨ s.loaded = false ∨ s.fatal ≠ none) : s.start = s := by
  refine if_neg fun ⟨hr, hl, hf⟩ => ?_
  simp [hr, hl, hf] at h

theorem State.stop_running (hr : s.run = .running) : s.stop = { s with stopReq := true, run := .stopping } := if_pos hr

theorem State.stop_ignored (hr : s.run ≠ .running) : s.stop = s := if_neg hr

/-- Settles O50: each call is one update when it is enabled, and none when it is ignored. -/
theorem startAndStop : Obligations.StartAndStop := by
  intro s rest
  refine ⟨fun h hr hl hf => ?_, fun h hi => ?_, fun h hr => ?_, fun h hr => ?_⟩ <;>
    refine (step_of_turns h).trans (congrArg Host.Outcome.next ?_)
  · exact State.start_enabled hr hl hf
  · exact State.start_ignored hi
  · exact State.stop_running hr
  · exact State.stop_ignored hr

/-! ## Restart -/

theorem State.restart_stopped (hr : s.run = .stopped) (hran : s.ran = true) : s.restart = s.resetAndStart := by
  simp [State.restart, hr, hran]

/-- A running core that a Restart has asked to stop, and waits for (60 R319). -/
def State.awaitStop (s : State) : State := { s with stopReq := true, run := .stopping, restarts := s.restarts + 1 }

theorem State.restart_running (hr : s.run = .running) : s.restart = s.awaitStop := by
  simp [State.restart, State.stop, State.awaitStop, hr]

/-- Settles O51: the call ends in its own step, by the reset and the Start. -/
theorem restartFromStopped : Obligations.RestartFromStopped := by
  intro s rest h hr hran
  refine ⟨_, (step_of_turns h).trans (congrArg Host.Outcome.next (State.restart_stopped hr hran)), ?_⟩
  rw [State.resetAndStart_eq]
  exact ⟨fun hreload => if_pos hreload, fun hkeep => if_neg (hkeep.trans_ne (by decide)), rfl,
    State.reg_of_v_cleared rfl, rfl, rfl, rfl, fun _ => Vector.getElem_replicate .., rfl, rfl,
    fun _ => Vector.getElem_replicate .., rfl, Surface.pixel_blank .small,
    rfl, rfl, rfl, rfl, rfl, rfl, rfl, rfl, rfl, rfl, rfl, rfl, rfl,
    fun hbig => if_pos hbig, fun hsmall => if_neg (hsmall.trans_ne (by decide))⟩

/-- An engine that may go on honours a Stop request in its turn, in a key wait or not (60 R318, 46 R231). -/
theorem engineStep_stop (hr : s.run ≠ .stopped) (hf : s.fatal = none) (hs : s.stopReq = true) :
    ∃ a, engineStep s = .next ((s.setWaiting none).setPc a).observeStop := by
  cases hw : s.waiting with
  | some w => exact ⟨w.addr, (engineStep_poll s w hr hf hw).trans (congrArg _ (State.poll_stop w hs))⟩
  | none =>
    have hnone : s.setWaiting none = s := by rw [← hw]; rfl
    exact ⟨s.pc, (engineStep_iteration s hr hf hw).trans ((iteration_stop hs).trans (by rw [hnone]; rfl))⟩

/-- Settles O52: the call sets the Stop request, the engine's turn honours it, and then the waiting Restart is ready. -/
theorem restartOfRunningCompletes : Obligations.RestartOfRunningCompletes := by
  intro s h hr hf
  have hcall : step s = .next (State.awaitStop { s with turns := [.engine, .restartFinish] }) :=
    (step_of_turns h).trans (congrArg Host.Outcome.next (State.restart_running hr))
  obtain ⟨a, hstop⟩ := engineStep_stop (s := State.awaitStop { s with turns := [.restartFinish] }) nofun hf rfl
  refine ⟨_, _, _, hcall, hstop, congrArg Host.Outcome.next (if_pos rfl), rfl, rfl, rfl, fun _ => rfl, rfl, rfl,
    fun _ => rfl, fun _ => rfl, ?_⟩
  unfold State.finishRestart
  rw [State.resetAndStart_eq]
  exact ⟨rfl, rfl, rfl, State.reg_of_v_cleared rfl, rfl, rfl, fun hreload => if_pos hreload,
    fun hkeep => if_neg (hkeep.trans_ne (by decide))⟩

end Sys2Proof.Machine
end

section
/-! Load (70 R350 to R355): the bytes it lays out, the fields it resets, and that a Start then boots the program. -/

namespace Sys2Proof.Machine

variable {p : List Byte} {a : Nat}

/-- Load lays out the program at 0x200 (70 R350). -/
theorem Memory.read_loaded_program (g : Vector Byte 80) (p : List Byte) (k : Fin p.length) :
    (Memory.loaded g p).read (0x200 + k.val) = p[k] := by
  rw [Memory.read_loaded, if_neg (by simp only [glyphLen]; omega), if_pos (by simp only [base]; omega)]
  simp [base]

/-- Load fills the rest of memory with 0 (20 R72). -/
theorem Memory.read_loaded_fill (g : Vector Byte 80) (h : (80 ≤ a ∧ a < 0x200) ∨ 0x200 + p.length ≤ a) :
    (Memory.loaded g p).read a = 0 := by
  rw [Memory.read_loaded, if_neg (by simp only [glyphLen]; omega), if_neg (by simp only [base]; omega)]

theorem takeTurn_load {s : State} (h : s.run = .stopped) (p : List Byte) :
    takeTurn (.load p) s = .next (s.load p) := if_pos h

/-- Settles O49: a program that fits is laid out over the cleared state, and one that does not is only answered. -/
theorem loadResetsOrRejects : Obligations.LoadResetsOrRejects := by
  intro s p rest h hr
  rw [step_of_turns h, takeTurn_load (s := { s with turns := rest }) hr]
  refine ⟨fun hlong => congrArg _ (State.load_of_lt _ p hlong), fun hfits => ?_⟩
  refine ⟨_, congrArg _ (State.load_of_le _ p hfits), ?_⟩
  exact ⟨Memory.read_loaded_glyph _ p, Memory.read_loaded_program _ p, fun _ => Memory.read_loaded_fill _, rfl,
    State.reg_of_v_cleared rfl, rfl, rfl, rfl, fun _ => Vector.getElem_replicate .., rfl, rfl,
    fun _ => Vector.getElem_replicate .., rfl, Surface.pixel_blank .small,
    rfl, rfl, rfl, rfl, hr, rfl, rfl, rfl, rfl, rfl, rfl, rfl, rfl, rfl⟩

/-- Settles O57: the Load leaves a stopped core with the program, and the Start runs it. -/
theorem loadThenStartBoots : Obligations.LoadThenStartBoots := by
  intro p hfits
  refine ⟨_, _, congrArg Host.Outcome.next (State.load_of_le { State.reset with turns := [.start] } p hfits),
    congrArg Host.Outcome.next (State.start_enabled rfl rfl rfl), rfl, rfl, rfl, rfl,
    State.reg_of_v_cleared rfl, rfl, rfl, rfl, Memory.read_loaded_program _ p, rfl, ?_⟩
  exact ⟨nofun, rfl, rfl, rfl⟩

end Sys2Proof.Machine
end

section
/-! The timer driver (60 R325, R327): what one step counts, and that two count what one of their sum counts. -/

namespace Sys2Proof.Machine

variable {s : State} {ms : Rat}

theorem takeTurn_timeStep (hms : 0 ≤ ms) (htick : 0 < s.params.tickMs) :
    takeTurn (.timeStep ms) s = .next (s.timeStep ms) :=
  (if_neg (not_lt.2 hms)).trans (if_neg (not_le.2 htick))

theorem countDown_eq_zero (b : Byte) (n : Nat) : countDown b n = 0 ↔ b.toNat ≤ n := by
  rw [← BitVec.toNat_inj, countDown_toNat]
  exact Nat.sub_eq_zero_iff_le

theorem countDown_countDown (b : Byte) (m n : Nat) : countDown (countDown b m) n = countDown b (m + n) := by
  apply BitVec.eq_of_toNat_eq
  simp only [countDown_toNat, Nat.sub_sub]

/-- Settles O53: the bracket fixes the number of whole ticks, and the step is its three writes and one event at most. -/
theorem timerStepCountsTicks : Obligations.TimerStepCountsTicks := by
  intro s ms n rest h hms htick hlo hhi
  have hn : wholeTicks s.params (s.acc + ms) = n := wholeTicks_eq _ _ n htick ⟨hlo, hhi⟩
  rw [step_of_turns h, takeTurn_timeStep (s := { s with turns := rest }) hms htick, State.timeStep_eq]
  dsimp only
  rw [hn]
  refine ⟨_, rfl, rfl, countDown_toNat .., countDown_toNat ..,
    fun ⟨hst, hle⟩ => if_pos ⟨hst, (countDown_eq_zero ..).2 hle⟩,
    fun hno => if_neg fun ⟨hst, hzero⟩ => hno ⟨hst, (countDown_eq_zero ..).1 hzero⟩, ?_⟩
  simp [SameRegs, SameStack, SameMem, SameDisplay, SameControl, State.reg]

/-- The whole ticks of a sum: those of the first part, and those of what it leaves over with the second (60 R325). -/
theorem wholeTicks_add (p : Params) {a m : Rat} (h : 0 < p.tickMs) (ha : 0 ≤ a) (hm : 0 ≤ m) :
    wholeTicks p (a + m) = wholeTicks p a + wholeTicks p (a - wholeTicks p a * p.tickMs + m) := by
  obtain ⟨hlo, hhi⟩ := wholeTicks_bracket p a h ha
  obtain ⟨hlo', hhi'⟩ := wholeTicks_bracket p (a - wholeTicks p a * p.tickMs + m) h (by linarith)
  refine wholeTicks_eq p _ _ h ?_
  push_cast
  constructor <;> linarith

theorem State.timeStep_params (s : State) (ms : Rat) : (s.timeStep ms).params = s.params := by
  rw [State.timeStep_eq]

/-- A listed timer step, whatever turns are still to come. -/
theorem step_timeStep (rest : List Turn) (hms : 0 ≤ ms) (htick : 0 < s.params.tickMs) :
    step { s with turns := .timeStep ms :: rest } = .next { s.timeStep ms with turns := rest } := by
  refine (takeTurn_timeStep (s := { s with turns := rest }) hms htick).trans (congrArg Host.Outcome.next ?_)
  rw [State.timeStep_eq, State.timeStep_eq]

/-- Two timer steps leave the clock and the timers that one step of their sum leaves. -/
theorem State.timeStep_timeStep (s : State) {m₁ m₂ : Rat} (htick : 0 < s.params.tickMs) (hacc : 0 ≤ s.acc)
    (h₁ : 0 ≤ m₁) (h₂ : 0 ≤ m₂) :
    ((s.timeStep m₁).timeStep m₂).acc = (s.timeStep (m₁ + m₂)).acc ∧
      ((s.timeStep m₁).timeStep m₂).dt = (s.timeStep (m₁ + m₂)).dt ∧
      ((s.timeStep m₁).timeStep m₂).st = (s.timeStep (m₁ + m₂)).st := by
  have hsum := wholeTicks_add s.params htick (add_nonneg hacc h₁) h₂
  simp only [State.timeStep_eq, countDown_countDown, ← add_assoc, hsum, and_true]
  push_cast
  ring

/-- Settles O54: the three steps are timer steps, and the ticks of the sum are the sum of the ticks. -/
theorem timerStepsAddUp : Obligations.TimerStepsAddUp := by
  intro s m₁ m₂ t u v htick hacc h₁ h₂ ht hu hv
  cases (step_timeStep [.timeStep m₂] h₁ htick).symm.trans ht
  cases (step_timeStep [] h₂ (s.timeStep_params m₁ ▸ htick)).symm.trans hu
  cases (step_timeStep [] (add_nonneg h₁ h₂) htick).symm.trans hv
  exact s.timeStep_timeStep htick hacc h₁ h₂

end Sys2Proof.Machine
end

section
/-! The key port, the presenter's port, and the calls outside the host's contract (60 R324, R330, R332, R334,
70 R352). -/

namespace Sys2Proof.Machine

/-- Settles O55: one key is set, or one event is emitted. -/
theorem keyAndSnapshotPorts : Obligations.KeyAndSnapshotPorts := by
  intro s rest
  refine ⟨fun k b h => ?_, fun h => step_of_turns h⟩
  refine ⟨_, (step_of_turns h).trans (if_pos k.isLt), ?_, fun j hj => ?_, rfl⟩
  · simp
  · have hne : k.val ≠ j.val := fun e => hj (Fin.ext e.symm)
    simp [hne]

/-- Settles O56: each port checks its call first, and refuses. -/
theorem callsOutsideContractAreRefused : Obligations.CallsOutsideContractAreRefused := by
  intro s rest
  refine ⟨fun p h hr => ?_, fun k b h hk => ?_, fun ms h hms => ?_⟩ <;> refine (step_of_turns h).trans ?_
  · exact if_neg hr
  · exact if_neg (by omega)
  · exact if_pos hms

end Sys2Proof.Machine
end
